-- ==== Sys2Proof/Word.lean ====
section
/-! DEFINITION. The words of the link block: bytes, the enumerations whose codes the spec gives (R97, R98, R300),
the encoded operations in the code spaces of spec/opcode_table.json, and the reasons a code is rejected. -/

namespace Sys2Proof

/-- The smallest unit of the frame buffer and of host data (R33, R71). -/
abbrev Byte := BitVec 8

/-- `MAX_FRAME_SIZE` (R8). -/
abbrev maxFrameSize : Nat := 40

/-- `MAX_DATA_SIZE` (R8). -/
abbrev maxDataSize : Nat := 32

/-- `BROADCAST` (R8). -/
abbrev broadcast : BitVec 16 := 0xFFFF

/-- The direction of a link (R31); `reserved` is the code 3 that no rule writes (R98). -/
inductive Dir where
  | none
  | transmit
  | receive
  | reserved
  deriving DecidableEq, Repr

/-- The FSM state of a link (R32, R97); `reserved k` is the code `9 + k` that no rule writes. -/
inductive LinkState where
  | ready
  | start
  | strobe
  | sync
  | payload
  | data
  | leadout
  | recv
  | error
  | reserved (k : Fin 7)
  deriving DecidableEq, Repr

/-- The prescaler register (R42): stopped, or one of the three tiers of R232. -/
inductive Prescaler where
  | stopped
  | div64
  | div256
  | div1024
  deriving DecidableEq, Repr

/-- The result codes of R300. -/
inductive ResultCode where
  | ok
  | configError
  | busy
  | noData
  | frameError
  | crcError
  deriving DecidableEq, Repr

/-- The operand record beside a command code (R102). One record type serves every command: a command reads its own
operands and ignores the others. -/
structure Operands where
  rate      : Nat := 0
  direction : BitVec 2 := 0
  length    : Nat := 0
  data      : List Byte := []
  addr      : BitVec 16 := 0
  b         : Byte := 0
  d         : Bool := false
  deriving DecidableEq, Repr

/-- What the host side can present for execution: a command code with its record (table format CMD), the input of a
combinational function (FUNC, R103), a wire word (WIRE, R90 to R95), or a 5-bit symbol (SYMBOL, R92). -/
inductive HostCode where
  | cmd       (code : BitVec 4) (ops : Operands)
  | lcEnc     (n : BitVec 4)
  | lcDec     (c : BitVec 5)
  | wireEnc   (b : Byte)
  | wireDec   (s : BitVec 10)
  | crc16     (data : List Byte) (length : Nat)
  | wire9     (w : BitVec 9)
  | wire11    (w : BitVec 11)
  | leadout9  (w : BitVec 9)
  | leadout11 (w : BitVec 11)
  | symbol    (c : BitVec 5)
  deriving DecidableEq, Repr

/-- An encoded operation: the dispatch key of a tick (table format TICK, R100) or something the host presents. -/
inductive Code where
  | tick (key : BitVec 6)
  | host (h : HostCode)
  deriving DecidableEq, Repr

/-- Why a code stands for no operation. -/
inductive DecodeError where
  /-- A 9- or 11-bit word whose framing bit is 0: no wire word (R90). -/
  | noFramingBit
  /-- A word offered as the leadout word that is not `1 << (W-1)` (R95). -/
  | notLeadout
  /-- A CONFIGURE whose direction operand is the reserved code 3 (R98, R102). -/
  | reservedDirection
  deriving DecidableEq, Repr

end Sys2Proof
end

