-- ==== Sys2Proof/Config.lean ====
section
/-! DEFINITION. The parameters of the block (R9): a plain record, so that every claim can hold for all of them. -/

namespace Sys2Proof

/-- Line-coding mode (R9, D2). -/
inductive Coding where
  | raw
  | balanced
  deriving DecidableEq, Repr

/-- Byte order of the 16-bit transport fields (R9, D33). -/
inductive HostOrder where
  | le
  | be
  deriving DecidableEq, Repr

/-- `SPIN_MAX` (R9, R316, R317): the default, a fixed number of prescaled clocks, or the source's unbounded spin. -/
inductive SpinBound where
  | halfPeriod
  | clocks (n : Nat)
  | infinite
  deriving DecidableEq, Repr

/-- `PHASE_DELAY` (R9, R316): the default, or a fixed number of prescaled clocks. -/
inductive PhaseDelay where
  | halfPeriod
  | clocks (n : Nat)
  deriving DecidableEq, Repr

/-- The code set `CODESET` (R92), ascending. -/
def codeSet : List (BitVec 5) :=
  [0x04, 0x05, 0x06, 0x09, 0x0A, 0x0B, 0x0C, 0x0D, 0x12, 0x13, 0x14, 0x15, 0x16, 0x19, 0x1A, 0x1B]

/-- A 4b/5b code assignment `LC` (R93): entry `n` is the code of nibble `n`. -/
abbrev LineCode := Vector (BitVec 5) 16

/-- The default assignment, ascending (R93, D3). -/
def ascendingCode : LineCode :=
  #v[0x04, 0x05, 0x06, 0x09, 0x0A, 0x0B, 0x0C, 0x0D, 0x12, 0x13, 0x14, 0x15, 0x16, 0x19, 0x1A, 0x1B]

/-- `LC` is a bijection from the nibbles onto `CODESET` (R93). -/
abbrev LineCode.Bijective (lc : LineCode) : Prop :=
  (∀ n : Fin 16, lc[n] ∈ codeSet) ∧ ∀ m n : Fin 16, lc[m] = lc[n] → m = n

/-- The parameters of R9. -/
structure Config where
  coding        : Coding
  tbyte         : Nat
  nStrobe       : Nat
  nSync         : Nat
  lc            : LineCode
  recvOverwrite : Bool
  fClk          : Nat
  cmpWidth      : Nat
  spinMax       : SpinBound
  phaseDelay    : PhaseDelay
  hostOrder     : HostOrder
  deriving DecidableEq, Repr

/-- `W`, the length of a wire word in bits, by coding mode (R9, R90). -/
def Coding.wireLength : Coding → Nat
  | .raw => 9
  | .balanced => 11

/-- The constraints of R9 on the parameters. -/
abbrev Config.Valid (c : Config) : Prop :=
  c.coding.wireLength ≤ c.tbyte ∧
  (2 ≤ c.nStrobe ∧ c.nStrobe % 2 = 0) ∧
  (4 ≤ c.nSync ∧ c.nSync % 2 = 0) ∧
  c.lc.Bijective ∧
  1 ≤ c.fClk ∧
  1 ≤ c.cmpWidth ∧
  c.phaseDelay ≠ .clocks 0

/-- The test values of R9 for RAW. -/
def Config.rawTest : Config where
  coding := .raw
  tbyte := 10
  nStrobe := 4
  nSync := 4
  lc := ascendingCode
  recvOverwrite := false
  fClk := 16000000
  cmpWidth := 8
  spinMax := .halfPeriod
  phaseDelay := .halfPeriod
  hostOrder := .le

/-- The test values of R9 for BALANCED. -/
def Config.balancedTest : Config :=
  { Config.rawTest with coding := .balanced, tbyte := 12 }

end Sys2Proof
end

