-- ==== Sys2Proof/Machine/State.lean ====
section
/-! DEFINITION. The state of one link with its host and its environment's inputs, as plain data; why a step stops; the
state after power-on reset. -/

namespace Sys2Proof.Machine

open Sys2Proof

/-- The frame buffer as a canonical list of (index, byte) pairs: indices strictly rising and below `MAX_FRAME_SIZE`, no
byte equal to `0`, the value an unlisted index reads (every byte is 0 at reset, R52). `Memory.wf` says so. -/
abbrev Memory := List Host.Cell

/-- What a call hands back beside its result code (R102, R300), or what a combinational function answers (R103). -/
inductive ReturnInfo where
  /-- No information. -/
  | nothing
  /-- RECEIVE on OK: `outLength` and `outBuffer` (R235). -/
  | frame (outLength : BitVec 6) (outBuffer : List Byte)
  /-- CRC_READ and CRC16 (R124, R125). -/
  | crc (value : BitVec 16)
  /-- Transport RECV on OK (R262). -/
  | message (srcAddr : BitVec 16) (data : List Byte) (length : Nat)
  /-- LC_ENC (R140). -/
  | symbol (c : BitVec 5)
  /-- LC_DEC and the symbol rows (R141). -/
  | nibble (n : BitVec 4)
  /-- WIRE_ENC (R142): a word of `W` bits, zero-extended. -/
  | wireWord (w : BitVec 11)
  /-- WIRE_DEC (R143). -/
  | byte (b : Byte)
  /-- The wire-word rows: the word, the line's levels through its slot (R96), the byte a receiver decodes (R143). -/
  | slot (w : BitVec 11) (levels : List Bool) (decoded : Byte)
  deriving DecidableEq, Repr

/-- What the last host call returned: its result code (none for a combinational function, and before any call) and its
information. -/
structure HostReturn where
  code : Option ResultCode
  info : ReturnInfo
  deriving DecidableEq, Repr

/-- A call the host makes: something presented in a code, or a call of the transport layer (R261, R262). -/
inductive HostCall where
  | code (h : HostCode)
  | send (dstAddr : BitVec 16) (length : Nat) (data : List Byte)
  | recv
  deriving DecidableEq, Repr

/-- Which agent moves (R6, R81), with the level the environment gives the input line meanwhile (R305). -/
inductive Turn where
  /-- Tick level: the tick source fires once (R7). -/
  | tick (lineIn : Bool)
  /-- Clock level: one edge of the prescaled clock (R312). -/
  | clock (lineIn : Bool)
  /-- The host agent takes its next step. -/
  | host
  deriving DecidableEq, Repr

/-- Why the machine stops. -/
inductive Fault where
  /-- `unreachable state` (R72, R104, R168, R201): raised by a tick whose key no rule writes (log 24 for one without
  direction), by a frame-buffer index of 40 or more, and by a timed phase whose counter breaks R51 (log 6). Safe: no run from reset meets it. -/
  | unreachableState
  deriving DecidableEq, Repr

/-- Why a step has no meaning. -/
inductive Refusal where
  /-- Raised by `exec` for an instruction that has no meaning yet. Safe. -/
  | notModelled (mnemonic : String)
  /-- Raised by `step` when the host presents a code that stands for no operation. Safe. -/
  | undecodable (e : DecodeError)
  /-- Raised by RESERVED.CMD: codes 0x8 to 0xF are refused (R104, R237). Safe. -/
  | reservedCommand
  /-- Raised by CONFIGURE when the compare value is negative or does not fit `CMP_WIDTH` (R233). Safe. -/
  | compareOutOfRange
  /-- Raised by CONFIGURE on the ill-formed direction `reserved`, which no code decodes to (R98). Safe. -/
  | reservedDirection
  /-- Raised by TRANSMIT, SEND and CRC16 when the host's sequence is shorter than its precondition (R124, R350). Safe. -/
  | shortData
  /-- Raised by RECEIVE when the host's `outBuffer` holds fewer than 40 bytes (R350). Safe. -/
  | outBufferTooSmall
  deriving DecidableEq, Repr

/-- One link, its host and its pending inputs. The registers are those of 10_state.md; widths and resets in INVENTORY.md.
-/
structure State where
  cfg            : Config
  dir            : Dir
  st             : LinkState
  frameBuffer    : Memory
  payloadLength  : BitVec 6
  byteIndex      : BitVec 6
  bitTimer       : Nat
  lineOut        : Bool
  activity       : Bool
  lockCount      : Nat
  shiftReg       : BitVec 10
  ownAddress     : BitVec 16
  baud           : BitVec 13
  prescaler      : Prescaler
  compare        : Nat
  tickEnable     : Bool
  tcnt           : Nat
  phaseReq       : Bool
  crcAcc         : BitVec 16
  /-- The phase correction's spin (R316): prescaled clocks spun so far, or none running. -/
  spin           : Option Nat
  /-- A tick that fell due while `tickEnable` was 0 (R313). -/
  tickDue        : Bool
  /-- The input pin (R305). -/
  lineIn         : Bool
  /-- RECEIVE's check phase has passed and its critical phase has not run (R82, R345). -/
  receivePending : Bool
  /-- A transport RECV is polling (R262). -/
  recvActive     : Bool
  hostReturn     : HostReturn
  /-- Writable bytes of the host's `outBuffer` (R350). -/
  outCapacity    : Nat
  hostQueue      : List HostCall
  schedule       : List Turn
  deriving DecidableEq, Repr

/-- A link of given parameters after power-on reset (R52, R340), with no host call and no turn pending. -/
def State.resetWith (cfg : Config) : State where
  cfg := cfg
  dir := .none
  st := .ready
  frameBuffer := []
  payloadLength := 0
  byteIndex := 0
  bitTimer := 0
  lineOut := false
  activity := false
  lockCount := 0
  shiftReg := 0
  ownAddress := 0
  baud := 0
  prescaler := .stopped
  compare := 0
  tickEnable := false
  tcnt := 0
  phaseReq := false
  crcAcc := 0xFFFF
  spin := none
  tickDue := false
  lineIn := false
  receivePending := false
  recvActive := false
  hostReturn := { code := none, info := .nothing }
  outCapacity := 40
  hostQueue := []
  schedule := []

/-- Power-on reset with the RAW test values of R9 (DESIGN CHOICE, log 1). -/
def State.reset : State := State.resetWith Config.rawTest

end Sys2Proof.Machine
end

