-- ==== Sys2Proof/Machine/Flags.lean ====
section
/-! DEFINITION. The block has no flag register (R48). What stands for status is the result code of a command: here are
the checks that give it, in the order the spec gives (R309). -/

namespace Sys2Proof.Machine

open Sys2Proof

/-- CONFIGURE's only check (R231): whether the rate is outside `[100, 5000]`. -/
def rateOutOfRange (rate : Nat) : Bool := rate < 100 || 5000 < rate

/-- TRANSMIT's check phase (R234): the code it ends with, or none where it passes. -/
def transmitCheck (s : State) : Option ResultCode :=
  if s.dir ≠ .transmit then some .configError
  else if s.st ≠ .ready then some .busy
  else none

/-- RECEIVE's check phase (R235): the code it ends with, or none where it passes. -/
def receiveCheck (s : State) : Option ResultCode :=
  if s.dir ≠ .receive then some .configError
  else if s.st = .error then some .frameError
  else if s.st ≠ .recv then some .noData
  else none

end Sys2Proof.Machine
end

