-- ==== Sys2Proof/Syntax.lean ====
section
/-! DEFINITION. The instructions: one constructor per row of spec/opcode_table.json. Where a row leaves bits of its
code open, they are the constructor's operand, so that no bit of a code is lost. -/

namespace Sys2Proof

/-- The operations of the block: tick rules (R100), host commands (R102), combinational functions (R103), wire words
(R90) and line-code symbols (R92). -/
inductive Instr where
  /-- A tick of a link whose `dir` is None, whatever its state code (R101). -/
  | idle (st : BitVec 4)
  /-- TX.READY (R161). -/
  | txReady
  /-- TX.START (R162). -/
  | txStart
  /-- TX.STROBE (R163). -/
  | txStrobe
  /-- TX.SYNC (R164). -/
  | txSync
  /-- TX.PAYLOAD (R165). -/
  | txPayload
  /-- TX.DATA (R166). -/
  | txData
  /-- TX.LEADOUT (R167). -/
  | txLeadout
  /-- A TX tick with `st = RECV` (R168). -/
  | txUnreachableRecv
  /-- A TX tick with `st[3] = 1`: ERROR or a reserved code (R168); `low` is `st[2:0]`. -/
  | txUnreachableHigh (low : BitVec 3)
  /-- RX.READY, the lock-on (R192). -/
  | rxReady
  /-- RX.START (R191). -/
  | rxStart
  /-- An RX tick with `st = STROBE` (R201). -/
  | rxUnreachableStrobe
  /-- RX.SYNC (R194). -/
  | rxSync
  /-- RX.PAYLOAD (R195, R196). -/
  | rxPayload
  /-- RX.DATA (R195, R197). -/
  | rxData
  /-- RX.LEADOUT (R195, R198). -/
  | rxLeadout
  /-- RX.RECV (R199). -/
  | rxRecv
  /-- RX.ERROR (R200). -/
  | rxError
  /-- An RX tick with the reserved state code 9 (R201). -/
  | rxUnreachable9
  /-- An RX tick with the reserved state code 10 (R201). -/
  | rxUnreachable10
  /-- An RX tick with the reserved state code 11 (R201). -/
  | rxUnreachable11
  /-- An RX tick with the reserved state code 12 (R201). -/
  | rxUnreachable12
  /-- An RX tick with the reserved state code 13 (R201). -/
  | rxUnreachable13
  /-- An RX tick with the reserved state code 14 (R201). -/
  | rxUnreachable14
  /-- An RX tick with the reserved state code 15 (R201). -/
  | rxUnreachable15
  /-- A tick with the reserved direction code 3 (R104). -/
  | reservedDir3 (st : BitVec 4)
  /-- CONFIGURE (R231). -/
  | configure (rate : Nat) (direction : Dir)
  /-- TRANSMIT (R234). -/
  | transmit (length : Nat) (data : List Byte)
  /-- RECEIVE (R235). -/
  | receive
  /-- SET_ADDRESS (R236). -/
  | setAddress (addr : BitVec 16)
  /-- CRC_INIT (R121). -/
  | crcInit
  /-- CRC_BYTE (R122). -/
  | crcByte (b : Byte)
  /-- CRC_BIT (R123). -/
  | crcBit (d : Bool)
  /-- CRC_READ (R125). -/
  | crcRead
  /-- A reserved command code 0x8 to 0xF (R237); `low` is its bits 2 to 0. -/
  | reservedCmd (low : BitVec 3)
  /-- LC_ENC of a nibble (R140). -/
  | lcEnc (n : BitVec 4)
  /-- LC_DEC of a symbol (R141). -/
  | lcDec (c : BitVec 5)
  /-- WIRE_ENC of a byte (R142). -/
  | wireEnc (b : Byte)
  /-- WIRE_DEC of a `shiftReg` value of W-1 bits (R143). -/
  | wireDec (s : BitVec 10)
  /-- CRC16 over `data[0..length-1]` (R124). -/
  | crc16 (data : List Byte) (length : Nat)
  /-- The RAW wire word of `b` (R91). -/
  | wireRaw (b : Byte)
  /-- The BALANCED wire word with the symbols `h` then `l` (R94). -/
  | wireBalanced (h l : BitVec 5)
  /-- The leadout wire word (R95). -/
  | wireLeadout
  /-- The symbol that stands at place 0 of the ascending table (R93). -/
  | lc5_0
  /-- The symbol that stands at place 1 of the ascending table (R93). -/
  | lc5_1
  /-- The symbol that stands at place 2 of the ascending table (R93). -/
  | lc5_2
  /-- The symbol that stands at place 3 of the ascending table (R93). -/
  | lc5_3
  /-- The symbol that stands at place 4 of the ascending table (R93). -/
  | lc5_4
  /-- The symbol that stands at place 5 of the ascending table (R93). -/
  | lc5_5
  /-- The symbol that stands at place 6 of the ascending table (R93). -/
  | lc5_6
  /-- The symbol that stands at place 7 of the ascending table (R93). -/
  | lc5_7
  /-- The symbol that stands at place 8 of the ascending table (R93). -/
  | lc5_8
  /-- The symbol that stands at place 9 of the ascending table (R93). -/
  | lc5_9
  /-- The symbol that stands at place A of the ascending table (R93). -/
  | lc5_A
  /-- The symbol that stands at place B of the ascending table (R93). -/
  | lc5_B
  /-- The symbol that stands at place C of the ascending table (R93). -/
  | lc5_C
  /-- The symbol that stands at place D of the ascending table (R93). -/
  | lc5_D
  /-- The symbol that stands at place E of the ascending table (R93). -/
  | lc5_E
  /-- The symbol that stands at place F of the ascending table (R93). -/
  | lc5_F
  /-- A symbol outside CODESET (R104, R141). -/
  | lc5Invalid (c : BitVec 5)
  deriving DecidableEq, Repr

end Sys2Proof
end

