-- ==== Sys2Proof/WellFormed.lean ====
section
/-! DEFINITION. Which instructions are well formed: the operand ranges and host preconditions the spec gives. -/

namespace Sys2Proof

/-- The checks on an instruction's operands: CONFIGURE takes one of the three named directions (R98, R102); TRANSMIT's
`data` holds at least `min(length, 40)` bytes (R350); CRC16's sequence holds `length` bytes (R124); WIRE_DEC's operand
has `W - 1` bits (R143); LC5.INVALID is a symbol outside CODESET (R104). Every other operand fits by its type. -/
def Instr.wellFormed (cfg : Config) (i : Instr) : Bool :=
  match i with
  | .idle _ => true
  | .txReady => true
  | .txStart => true
  | .txStrobe => true
  | .txSync => true
  | .txPayload => true
  | .txData => true
  | .txLeadout => true
  | .txUnreachableRecv => true
  | .txUnreachableHigh _ => true
  | .rxReady => true
  | .rxStart => true
  | .rxUnreachableStrobe => true
  | .rxSync => true
  | .rxPayload => true
  | .rxData => true
  | .rxLeadout => true
  | .rxRecv => true
  | .rxError => true
  | .rxUnreachable9 => true
  | .rxUnreachable10 => true
  | .rxUnreachable11 => true
  | .rxUnreachable12 => true
  | .rxUnreachable13 => true
  | .rxUnreachable14 => true
  | .rxUnreachable15 => true
  | .reservedDir3 _ => true
  | .configure _ d => d ≠ .reserved
  | .transmit n data => min n maxFrameSize ≤ data.length
  | .receive => true
  | .setAddress _ => true
  | .crcInit => true
  | .crcByte _ => true
  | .crcBit _ => true
  | .crcRead => true
  | .reservedCmd _ => true
  | .lcEnc _ => true
  | .lcDec _ => true
  | .wireEnc _ => true
  | .wireDec s => s.toNat < 2 ^ (cfg.coding.wireLength - 1)
  | .crc16 data n => n ≤ data.length
  | .wireRaw _ => true
  | .wireBalanced _ _ => true
  | .wireLeadout => true
  | .lc5_0 => true
  | .lc5_1 => true
  | .lc5_2 => true
  | .lc5_3 => true
  | .lc5_4 => true
  | .lc5_5 => true
  | .lc5_6 => true
  | .lc5_7 => true
  | .lc5_8 => true
  | .lc5_9 => true
  | .lc5_A => true
  | .lc5_B => true
  | .lc5_C => true
  | .lc5_D => true
  | .lc5_E => true
  | .lc5_F => true
  | .lc5Invalid c => c ∉ codeSet

end Sys2Proof
end

