-- ==== Sys2Proof/Decode.lean ====
section
/-! DEFINITION. The codes of the enumerations, the decoder (total, rejecting by name), the encoder written from the same
tables of the spec, and the host's view of the opcode table's words. -/

namespace Sys2Proof

/-- Direction codes (R98). -/
def Dir.code : Dir → BitVec 2
  | .none => 0
  | .transmit => 1
  | .receive => 2
  | .reserved => 3

/-- The direction with a code (R98). -/
def Dir.ofCode (c : BitVec 2) : Dir :=
  match c.toNat with
  | 0 => .none
  | 1 => .transmit
  | 2 => .receive
  | _ => .reserved

/-- State codes (R97). -/
def LinkState.code : LinkState → BitVec 4
  | .ready => 0
  | .start => 1
  | .strobe => 2
  | .sync => 3
  | .payload => 4
  | .data => 5
  | .leadout => 6
  | .recv => 7
  | .error => 8
  | .reserved k => BitVec.ofNat 4 (9 + k.val)

/-- The state with a code (R97). -/
def LinkState.ofCode (c : BitVec 4) : LinkState :=
  match c.toNat with
  | 0 => .ready
  | 1 => .start
  | 2 => .strobe
  | 3 => .sync
  | 4 => .payload
  | 5 => .data
  | 6 => .leadout
  | 7 => .recv
  | 8 => .error
  | n => .reserved (Fin.ofNat 7 (n - 9))

/-- Prescaler codes (R42, R232). -/
def Prescaler.code : Prescaler → BitVec 2
  | .stopped => 0
  | .div64 => 1
  | .div256 => 2
  | .div1024 => 3

/-- Result codes (R300). -/
def ResultCode.code : ResultCode → Nat
  | .ok => 0
  | .configError => 1
  | .busy => 2
  | .noData => 3
  | .frameError => 4
  | .crcError => 5

/-- The 6-bit dispatch key `dir[1:0] ++ st[3:0]` (R100). -/
def dispatchKey (dir : Dir) (st : LinkState) : BitVec 6 := dir.code ++ st.code

/-- The tick rule of a Transmit link by state code (R100, keys `01 xxxx`). -/
def decodeTxKey (st : BitVec 4) : Instr :=
  match st.toNat with
  | 0 => .txReady
  | 1 => .txStart
  | 2 => .txStrobe
  | 3 => .txSync
  | 4 => .txPayload
  | 5 => .txData
  | 6 => .txLeadout
  | 7 => .txUnreachableRecv
  | _ => .txUnreachableHigh (st.extractLsb' 0 3)

/-- The tick rule of a Receive link by state code (R100, keys `10 xxxx`). -/
def decodeRxKey (st : BitVec 4) : Instr :=
  match st.toNat with
  | 0 => .rxReady
  | 1 => .rxStart
  | 2 => .rxUnreachableStrobe
  | 3 => .rxSync
  | 4 => .rxPayload
  | 5 => .rxData
  | 6 => .rxLeadout
  | 7 => .rxRecv
  | 8 => .rxError
  | 9 => .rxUnreachable9
  | 10 => .rxUnreachable10
  | 11 => .rxUnreachable11
  | 12 => .rxUnreachable12
  | 13 => .rxUnreachable13
  | 14 => .rxUnreachable14
  | _ => .rxUnreachable15

/-- The tick rule a dispatch key selects (R100): every key selects exactly one. -/
def decodeTick (key : BitVec 6) : Instr :=
  let st := key.extractLsb' 0 4
  match Dir.ofCode (key.extractLsb' 4 2) with
  | .none => .idle st
  | .transmit => decodeTxKey st
  | .receive => decodeRxKey st
  | .reserved => .reservedDir3 st

/-- CONFIGURE's direction operand is one of the three named values (R98, R102). -/
def decodeConfigure (rate : Nat) (direction : BitVec 2) : Except DecodeError Instr :=
  match Dir.ofCode direction with
  | .reserved => .error .reservedDirection
  | d => .ok (.configure rate d)

/-- The command of a code and its operand record (R102); codes 0x8 to 0xF are RESERVED.CMD (R104). -/
def decodeCommand (code : BitVec 4) (ops : Operands) : Except DecodeError Instr :=
  match code.toNat with
  | 0 => decodeConfigure ops.rate ops.direction
  | 1 => .ok (.transmit ops.length ops.data)
  | 2 => .ok .receive
  | 3 => .ok (.setAddress ops.addr)
  | 4 => .ok .crcInit
  | 5 => .ok (.crcByte ops.b)
  | 6 => .ok (.crcBit ops.d)
  | 7 => .ok .crcRead
  | _ => .ok (.reservedCmd (code.extractLsb' 0 3))

/-- The row of a 5-bit symbol (R92, R93, R104): the sixteen codes of CODESET at their places in the ascending table, every
other symbol LC5.INVALID. -/
def decodeSymbol (c : BitVec 5) : Instr :=
  match c.toNat with
  | 0b00100 => .lc5_0
  | 0b00101 => .lc5_1
  | 0b00110 => .lc5_2
  | 0b01001 => .lc5_3
  | 0b01010 => .lc5_4
  | 0b01011 => .lc5_5
  | 0b01100 => .lc5_6
  | 0b01101 => .lc5_7
  | 0b10010 => .lc5_8
  | 0b10011 => .lc5_9
  | 0b10100 => .lc5_A
  | 0b10101 => .lc5_B
  | 0b10110 => .lc5_C
  | 0b11001 => .lc5_D
  | 0b11010 => .lc5_E
  | 0b11011 => .lc5_F
  | _ => .lc5Invalid c

/-- Decoding of what the host presents. -/
def decodeHost : HostCode → Except DecodeError Instr
  | .cmd code ops => decodeCommand code ops
  | .lcEnc n => .ok (.lcEnc n)
  | .lcDec c => .ok (.lcDec c)
  | .wireEnc b => .ok (.wireEnc b)
  | .wireDec s => .ok (.wireDec s)
  | .crc16 data n => .ok (.crc16 data n)
  | .wire9 w => if w.getLsbD 8 then .ok (.wireRaw (w.extractLsb' 0 8)) else .error .noFramingBit
  | .wire11 w =>
    if w.getLsbD 10 then .ok (.wireBalanced (w.extractLsb' 5 5) (w.extractLsb' 0 5)) else .error .noFramingBit
  | .leadout9 w => if w = 0x100 then .ok .wireLeadout else .error .notLeadout
  | .leadout11 w => if w = 0x400 then .ok .wireLeadout else .error .notLeadout
  | .symbol c => .ok (decodeSymbol c)

/-- The decoder, total on every code. -/
def decode : Code → Except DecodeError Instr
  | .tick key => .ok (decodeTick key)
  | .host h => decodeHost h

/-- The code of an instruction (R91, R93, R94, R95, R100, R102). Only the leadout word depends on the coding mode. -/
def encode (cfg : Config) (i : Instr) : Code :=
  match i with
  | .idle st => .tick (0b00#2 ++ st)
  | .txReady => .tick 0b01_0000
  | .txStart => .tick 0b01_0001
  | .txStrobe => .tick 0b01_0010
  | .txSync => .tick 0b01_0011
  | .txPayload => .tick 0b01_0100
  | .txData => .tick 0b01_0101
  | .txLeadout => .tick 0b01_0110
  | .txUnreachableRecv => .tick 0b01_0111
  | .txUnreachableHigh low => .tick (0b011#3 ++ low)
  | .rxReady => .tick 0b10_0000
  | .rxStart => .tick 0b10_0001
  | .rxUnreachableStrobe => .tick 0b10_0010
  | .rxSync => .tick 0b10_0011
  | .rxPayload => .tick 0b10_0100
  | .rxData => .tick 0b10_0101
  | .rxLeadout => .tick 0b10_0110
  | .rxRecv => .tick 0b10_0111
  | .rxError => .tick 0b10_1000
  | .rxUnreachable9 => .tick 0b10_1001
  | .rxUnreachable10 => .tick 0b10_1010
  | .rxUnreachable11 => .tick 0b10_1011
  | .rxUnreachable12 => .tick 0b10_1100
  | .rxUnreachable13 => .tick 0b10_1101
  | .rxUnreachable14 => .tick 0b10_1110
  | .rxUnreachable15 => .tick 0b10_1111
  | .reservedDir3 st => .tick (0b11#2 ++ st)
  | .configure rate d => .host (.cmd 0x0 { rate := rate, direction := d.code })
  | .transmit n data => .host (.cmd 0x1 { length := n, data := data })
  | .receive => .host (.cmd 0x2 {})
  | .setAddress a => .host (.cmd 0x3 { addr := a })
  | .crcInit => .host (.cmd 0x4 {})
  | .crcByte b => .host (.cmd 0x5 { b := b })
  | .crcBit d => .host (.cmd 0x6 { d := d })
  | .crcRead => .host (.cmd 0x7 {})
  | .reservedCmd low => .host (.cmd (0b1#1 ++ low) {})
  | .lcEnc n => .host (.lcEnc n)
  | .lcDec c => .host (.lcDec c)
  | .wireEnc b => .host (.wireEnc b)
  | .wireDec s => .host (.wireDec s)
  | .crc16 data n => .host (.crc16 data n)
  | .wireRaw b => .host (.wire9 (0b1#1 ++ b))
  | .wireBalanced h l => .host (.wire11 (0b1#1 ++ h ++ l))
  | .wireLeadout =>
    match cfg.coding with
    | .raw => .host (.leadout9 0x100)
    | .balanced => .host (.leadout11 0x400)
  | .lc5_0 => .host (.symbol 0b00100)
  | .lc5_1 => .host (.symbol 0b00101)
  | .lc5_2 => .host (.symbol 0b00110)
  | .lc5_3 => .host (.symbol 0b01001)
  | .lc5_4 => .host (.symbol 0b01010)
  | .lc5_5 => .host (.symbol 0b01011)
  | .lc5_6 => .host (.symbol 0b01100)
  | .lc5_7 => .host (.symbol 0b01101)
  | .lc5_8 => .host (.symbol 0b10010)
  | .lc5_9 => .host (.symbol 0b10011)
  | .lc5_A => .host (.symbol 0b10100)
  | .lc5_B => .host (.symbol 0b10101)
  | .lc5_C => .host (.symbol 0b10110)
  | .lc5_D => .host (.symbol 0b11001)
  | .lc5_E => .host (.symbol 0b11010)
  | .lc5_F => .host (.symbol 0b11011)
  | .lc5Invalid c => .host (.symbol c)

/-- The code a word of spec/opcode_table.json stands for, `nbits` being the row's bits in whole bytes. The table numbers
its formats apart, so one number can be a word of two formats: 0x00 is IDLE and CONFIGURE, 0x04 to 0x06 are CRC_INIT,
CRC_BYTE, CRC_BIT and the symbols LC5.0 to LC5.2, 0x09 to 0x0D are reserved command codes and the symbols LC5.3 to
LC5.7. DESIGN CHOICE (log 8): the command wins at 0x00 to 0x08, the symbol at 0x09 to 0x0D. -/
def tableCode (nbits w : Nat) : Option Code :=
  if nbits ≤ 8 then
    if w < 0x09 then some (.host (.cmd (BitVec.ofNat 4 w) {}))
    else if w < 0x0E then some (.host (.symbol (BitVec.ofNat 5 w)))
    else if w < 0x10 then some (.host (.cmd (BitVec.ofNat 4 w) {}))
    else if w < 0x40 then some (.tick (BitVec.ofNat 6 w))
    else none
  else if nbits ≤ 16 then
    if w < 0x20 then some (.host (.symbol (BitVec.ofNat 5 w)))
    else if 0x100 ≤ w ∧ w < 0x200 then some (.host (.wire9 (BitVec.ofNat 9 w)))
    else if 0x400 ≤ w ∧ w < 0x800 then some (.host (.wire11 (BitVec.ofNat 11 w)))
    else none
  else none

/-- The instruction the decoder reads from a table word (none where it is rejected). -/
def decodeTableWord (nbits w : Nat) : Option Instr :=
  match tableCode nbits w with
  | none => none
  | some c =>
    match decode c with
    | .ok i => some i
    | .error _ => none

end Sys2Proof
end

