-- ==== Sys2Proof/Machine/Operands.lean ====
section
/-! DEFINITION. Operand and value computations: line code, wire words and slots (30, 41), prescaler and compare value
(44), transport byte order (45). All of them are pure. -/

namespace Sys2Proof.Machine

open Sys2Proof

/-- `W` (R9, R90). -/
def wireLength (cfg : Config) : Nat := cfg.coding.wireLength

/-- LC_ENC (R140). -/
def lcEncode (lc : LineCode) (n : BitVec 4) : BitVec 5 := lc[n.toNat]

/-- LC_DEC (R141): a symbol outside CODESET gives 0 and no error. -/
def lcDecode (lc : LineCode) (c : BitVec 5) : BitVec 4 :=
  if c ∈ codeSet then BitVec.ofNat 4 (lc.toList.idxOf c) else 0

/-- WIRE_ENC by mode (R91, R94, R142), zero-extended to 11 bits. -/
def wireEncodeAs (coding : Coding) (lc : LineCode) (b : Byte) : BitVec 11 :=
  match coding with
  | .raw => (0b1#1 ++ b).zeroExtend 11
  | .balanced => 0b1#1 ++ lcEncode lc (b.extractLsb' 4 4) ++ lcEncode lc (b.extractLsb' 0 4)

/-- WIRE_DEC by mode (R143). -/
def wireDecodeAs (coding : Coding) (lc : LineCode) (s : BitVec 10) : Byte :=
  match coding with
  | .raw => s.extractLsb' 0 8
  | .balanced => lcDecode lc (s.extractLsb' 5 5) ++ lcDecode lc (s.extractLsb' 0 5)

/-- WIRE_ENC (R142). -/
def wireEncode (cfg : Config) (b : Byte) : BitVec 11 := wireEncodeAs cfg.coding cfg.lc b

/-- WIRE_DEC (R143). -/
def wireDecode (cfg : Config) (s : BitVec 10) : Byte := wireDecodeAs cfg.coding cfg.lc s

/-- The leadout word, `1 << (W-1)` (R95, D8). -/
def leadoutWord (cfg : Config) : BitVec 11 :=
  match cfg.coding with
  | .raw => 0x100
  | .balanced => 0x400

/-- SlotBit (R96) for a word of `len` bits: most significant bit first, then gap ticks at 0. -/
def slotBitAs (len : Nat) (w : BitVec 11) (k : Nat) : Bool :=
  if k < len then w.getLsbD (len - 1 - k) else false

/-- SlotBit (R96). -/
def slotBit (cfg : Config) (w : BitVec 11) (k : Nat) : Bool := slotBitAs (wireLength cfg) w k

/-- The levels of a whole slot, first tick first (R96). -/
def slotLevels (cfg : Config) (len : Nat) (w : BitVec 11) : List Bool :=
  (List.range cfg.tbyte).map (slotBitAs len w)

/-- The data bits of a wire word, without its framing bit, as `shiftReg` holds them (R143). -/
def dataBits (len : Nat) (w : BitVec 11) : BitVec 10 := BitVec.ofNat 10 (w.toNat % 2 ^ (len - 1))

/-- What a wire word of mode `coding` amounts to: the word, its slot on the line, the byte decoded from it. -/
def slotInfo (cfg : Config) (coding : Coding) (w : BitVec 11) : ReturnInfo :=
  .slot w (slotLevels cfg coding.wireLength w) (wireDecodeAs coding cfg.lc (dataBits coding.wireLength w))

/-- The RX shift (R195): `((shiftReg << 1) | sample) mod 2^(W-1)`. -/
def shiftIn (cfg : Config) (s : BitVec 10) (sample : Bool) : BitVec 10 :=
  BitVec.ofNat 10 ((2 * s.toNat + sample.toNat) % 2 ^ (wireLength cfg - 1))

/-- Prescale (R232). -/
def prescaleOf (rate : Nat) : Prescaler :=
  if 1000 ≤ rate then .div64 else if 250 ≤ rate then .div256 else .div1024

/-- The divisor of a prescaler tier (R232); the stopped prescaler has none. -/
def divisor : Prescaler → Nat
  | .stopped => 0
  | .div64 => 64
  | .div256 => 256
  | .div1024 => 1024

/-- Compare (R233): truncating, left to right; none where the result is negative or does not fit `CMP_WIDTH` bits. -/
def compareOf (cfg : Config) (rate : Nat) : Option Nat :=
  let q := cfg.fClk / divisor (prescaleOf rate) / rate
  if q = 0 then none else if q - 1 < 2 ^ cfg.cmpWidth then some (q - 1) else none

/-- Whether `n` spun clocks reach `SPIN_MAX` (R316); the unbounded spin has no bound (R317). -/
def spinBoundReached (bound : SpinBound) (compare n : Nat) : Bool :=
  match bound with
  | .halfPeriod => (compare + 1) / 2 ≤ n
  | .clocks m => m ≤ n
  | .infinite => false

/-- `PHASE_DELAY` in prescaled clocks; the default is `ceil((compare+1)/2)` (R316). -/
def phaseDelayOf (delay : PhaseDelay) (compare : Nat) : Nat :=
  match delay with
  | .halfPeriod => (compare + 2) / 2
  | .clocks n => n

/-- Put16 (R263). -/
def put16 (order : HostOrder) (v : BitVec 16) : List Byte :=
  match order with
  | .le => [v.extractLsb' 0 8, v.extractLsb' 8 8]
  | .be => [v.extractLsb' 8 8, v.extractLsb' 0 8]

/-- Get16 (R263) at index `i` of a frame that holds it. -/
def get16 (order : HostOrder) (f : List Byte) (i : Nat) : BitVec 16 :=
  match order with
  | .le => f.getD (i + 1) 0 ++ f.getD i 0
  | .be => f.getD i 0 ++ f.getD (i + 1) 0

end Sys2Proof.Machine
end

