-- ==== Sys2Proof/Machine/Ops.lean ====
section
/-! DEFINITION. The operations the meanings share: the frame buffer, the returns to the host, the countdowns and slots of
the FSMs, the lock-on step, tick entry. -/

namespace Sys2Proof.Machine

open Sys2Proof

/-! ### The frame buffer (20_memory.md) -/

/-- What an index that is not listed reads as (R52: every byte is 0 at reset). -/
def Memory.unlisted : Byte := 0

/-- Reading one byte. -/
def Memory.read : Memory → Nat → Byte
  | [], _ => Memory.unlisted
  | (a, v) :: m, i => if a = i then v else Memory.read m i

/-- Writing one byte, keeping the canonical form. -/
def Memory.write : Memory → Nat → Byte → Memory
  | [], i, v => if v = Memory.unlisted then [] else [(i, v)]
  | (a, w) :: m, i, v =>
    if a < i then (a, w) :: Memory.write m i v
    else
      let rest := if a = i then m else (a, w) :: m
      if v = Memory.unlisted then rest else (i, v) :: rest

/-- The canonical form from index `lo` on. -/
def Memory.wfFrom : Nat → Memory → Bool
  | _, [] => true
  | lo, (a, v) :: m => lo ≤ a && a < maxFrameSize && v ≠ Memory.unlisted && Memory.wfFrom (a + 1) m

/-- The canonical form: indices strictly rising, all below 40 (R70), no unlisted byte listed. -/
def Memory.wf (m : Memory) : Bool := Memory.wfFrom 0 m

/-- Writing a sequence from index `i` on (R234). -/
def Memory.load (m : Memory) (i : Nat) : List Byte → Memory
  | [] => m
  | b :: bs => Memory.load (Memory.write m i b) (i + 1) bs

/-- Reading the first `n` bytes (R235). -/
def Memory.drain (m : Memory) (n : Nat) : List Byte := (List.range n).map (Memory.read m)

/-- BufRead (R12, R71); none where the index does not exist (R72). -/
def bufRead (i : Nat) (s : State) : Option Byte :=
  if i < maxFrameSize then some (s.frameBuffer.read i) else none

/-- BufWrite (R12, R71); none where the index does not exist (R72). -/
def bufWrite (i : Nat) (v : Byte) (s : State) : Option State :=
  if i < maxFrameSize then some { s with frameBuffer := s.frameBuffer.write i v } else none

/-! ### Returns to the host -/

/-- A return of a result code alone. -/
def HostReturn.result (r : ResultCode) : HostReturn := { code := some r, info := .nothing }

/-- A return of a value and no result code. -/
def HostReturn.value (info : ReturnInfo) : HostReturn := { code := none, info := info }

/-- A call returns a result code and no information (R300). -/
def State.reply (r : ResultCode) (s : State) : State := { s with hostReturn := .result r }

/-- A call returns OK with information (R300). -/
def State.replyWith (info : ReturnInfo) (s : State) : State := { s with hostReturn := { code := some .ok, info := info } }

/-- A combinational function answers a value; no register of the block is read or written (R103, 41_line_code.md). -/
def State.answer (info : ReturnInfo) (s : State) : State := { s with hostReturn := .value info }

/-! ### Phases of the FSMs -/

/-- Entering a timed phase: the state and its countdown. -/
def State.enterPhase (st : LinkState) (ticks : Nat) (s : State) : State := { s with st := st, bitTimer := ticks }

/-- One tick of a timed phase: `bitTimer <- bitTimer - 1`, and where it reaches 0 the phase ends with `finish`. A phase
whose counter is already 0 is an unreachable state (R51, R170, R203; log 6). -/
def countdown (finish : State → Host.Outcome State Fault Refusal) (s : State) : Host.Outcome State Fault Refusal :=
  if s.bitTimer = 0 then .fault .unreachableState
  else
    let s := { s with bitTimer := s.bitTimer - 1 }
    if s.bitTimer = 0 then finish s else .next s

/-- The slot tick index `k = TBYTE - bitTimer` (R96); none where the counter breaks R51 (log 6). -/
def slotTick (s : State) : Option Nat :=
  if s.bitTimer = 0 ∨ s.cfg.tbyte < s.bitTimer then none else some (s.cfg.tbyte - s.bitTimer)

/-- One TX tick of a slot that carries `w` (R96, R165 to R167): drive the slot bit, count down, end with `finish`. -/
def txSlot (w : BitVec 11) (finish : State → Host.Outcome State Fault Refusal) (s : State) :
    Host.Outcome State Fault Refusal :=
  match slotTick s with
  | none => .fault .unreachableState
  | some k => countdown finish { s with lineOut := slotBit s.cfg w k }

/-- Every RX tick first sets `phaseReq <- 0` (R190). -/
def State.beginRx (s : State) : State := { s with phaseReq := false }

/-- LockStep (R193). -/
def lockStep (sample : Bool) (s : State) : State :=
  if sample then { s with lockCount := min (s.lockCount + 1) (s.cfg.nSync / 2 + 1) }
  else
    let s := if s.lockCount = s.cfg.nSync / 2 then s.enterPhase .sync (s.cfg.nSync / 2 - 1) else s
    { s with lockCount := 0 }

/-- What slot tick `k` does with the sample (R195): clear at the framing bit, shift a data bit, ignore a gap tick. -/
def rxSample (k : Nat) (sample : Bool) (s : State) : State :=
  if k = 0 then { s with shiftReg := 0, phaseReq := true }
  else if k ≤ wireLength s.cfg - 1 then { s with shiftReg := shiftIn s.cfg s.shiftReg sample }
  else s

/-- RxSlot (R195): take the sample, and on the slot's last tick decode and end with `finish`. -/
def rxSlot (finish : Byte → State → Host.Outcome State Fault Refusal) (s : State) :
    Host.Outcome State Fault Refusal :=
  match slotTick s with
  | none => .fault .unreachableState
  | some k =>
    let s := rxSample k s.lineIn s
    if s.bitTimer = 1 then finish (wireDecode s.cfg s.shiftReg) s
    else .next { s with bitTimer := s.bitTimer - 1 }

/-! ### The tick, the only interrupt (R304) -/

/-- Whether a tick may run now: `tickEnable` is 1 (R43), and no tick step is still running its spin (R308, R311). -/
def tickMayRun (s : State) : Bool := s.tickEnable && s.spin.isNone

/-- Tick entry (R310): nothing is saved, no mode changes and no vector is used; the tick sees the line's level (R305). The
return restores nothing (R311), so it is no operation: the state the tick's rule leaves is the state after it. -/
def tickEntry (level : Bool) (s : State) : State := { s with lineIn := level }

/-- The key that selects the tick's rule (R100). -/
def State.key (s : State) : BitVec 6 := dispatchKey s.dir s.st

end Sys2Proof.Machine
end

