-- ==== Sys2Proof/Machine/Control.lean ====
section
/-! DEFINITION. The control-surface commands (44_control_surface.md). -/

namespace Sys2Proof.Machine

open Sys2Proof

/-- CONFIGURE (R231 to R233). It sets `tcnt` to 0 and leaves a tick that already waits in `tickDue` (log 25). -/
def execConfigure (rate : Nat) (direction : Dir) (s : State) : Host.Outcome State Fault Refusal :=
  if direction = .reserved then .refused .reservedDirection
  else if rateOutOfRange rate then .next (s.reply .configError)
  else
    match compareOf s.cfg rate with
    | none => .refused .compareOutOfRange
    | some cmp =>
      .next ({ s with
        dir := direction
        baud := BitVec.ofNat 13 rate
        prescaler := prescaleOf rate
        compare := cmp
        st := .ready
        lockCount := 0
        tcnt := 0
        tickEnable := true }.reply .ok)

/-- TRANSMIT (R234). Its two phases are one step: no tick leaves TX READY (R82, log 4). It sets `tcnt` to 0 and leaves a
tick that already waits in `tickDue` (log 25), and it leaves `byteIndex` (R35, R50; log 26). -/
def execTransmit (length : Nat) (data : List Byte) (s : State) : Host.Outcome State Fault Refusal :=
  let n := min length maxFrameSize
  match transmitCheck s with
  | some r => .next (s.reply r)
  | none =>
    if data.length < n then .refused .shortData
    else
      .next ({ s with
        frameBuffer := s.frameBuffer.load 0 (data.take n)
        payloadLength := BitVec.ofNat 6 n
        st := .start
        tcnt := 0 }.reply .ok)

/-- RECEIVE reports FrameError and restarts the machine, and copies nothing (R235, R200, R303). -/
def reportFrameError (s : State) : Host.Outcome State Fault Refusal := .next ({ s with st := .start }.reply .frameError)

/-- RECEIVE's critical phase (R235): copy the frame out and restart the machine, whatever the ticks since the check phase
made of it (R345). Where they ended a new frame in ERROR, the stale bytes are not copied and FrameError is reported (R200,
R303, D21, against R235's pseudocode; log 27). -/
def receiveCritical (s : State) : Host.Outcome State Fault Refusal :=
  if s.st = .error then reportFrameError { s with receivePending := false }
  else if maxFrameSize < s.payloadLength.toNat then .fault .unreachableState
  else if s.outCapacity < maxFrameSize then .refused .outBufferTooSmall
  else
    .next ({ s with st := .start, receivePending := false }.replyWith
      (.frame s.payloadLength (s.frameBuffer.drain s.payloadLength.toNat)))

/-- RECEIVE's check phase (R235). The two phases are one step where RECV is stable under ticks and two steps with
RECV_OVERWRITE (R82, R345, log 4). -/
def receiveCheckPhase (s : State) : Host.Outcome State Fault Refusal :=
  match receiveCheck s with
  | some .frameError => reportFrameError s
  | some r => .next (s.reply r)
  | none => if s.cfg.recvOverwrite then .next { s with receivePending := true } else receiveCritical s

/-- RECEIVE (R235): the host's next step of it. -/
def execReceive (s : State) : Host.Outcome State Fault Refusal :=
  if s.receivePending then receiveCritical s else receiveCheckPhase s

/-- SET_ADDRESS (R236). -/
def execSetAddress (addr : BitVec 16) (s : State) : Host.Outcome State Fault Refusal :=
  .next ({ s with ownAddress := addr }.reply .ok)

/-- RESERVED.CMD (R104, R237): the command decoder refuses it. -/
def execReservedCmd (_ : State) : Host.Outcome State Fault Refusal := .refused .reservedCommand

end Sys2Proof.Machine
end

