-- ==== Sys2Proof/Machine/Crc.lean ====
section
/-! DEFINITION. The CRC-16/CCITT generator (40_crc16.md): the byte-parallel and bit-serial steps, the functional form,
and the four commands over `crcAcc`. -/

namespace Sys2Proof.Machine

open Sys2Proof

/-- One round of R122: shift left, XOR the polynomial if the top bit was set. -/
def crcRound (c : BitVec 16) : BitVec 16 := if c.getLsbD 15 then (c <<< 1) ^^^ 0x1021 else c <<< 1

/-- `n` rounds. -/
def crcRounds : Nat → BitVec 16 → BitVec 16
  | 0, c => c
  | n + 1, c => crcRounds n (crcRound c)

/-- The byte-parallel step (R122). -/
def crcByteStep (c : BitVec 16) (b : Byte) : BitVec 16 := crcRounds 8 (c ^^^ (b.zeroExtend 16 <<< 8))

/-- The bit-serial step (R123). -/
def crcBitStep (c : BitVec 16) (d : Bool) : BitVec 16 :=
  (c <<< 1) ^^^ (if xor (c.getLsbD 15) d then 0x1021 else 0)

/-- The initial value (R120, R121). -/
def crcInitial : BitVec 16 := 0xFFFF

/-- CRC16, the functional form (R124). -/
def crc16 (data : List Byte) : BitVec 16 := data.foldl crcByteStep crcInitial

/-- CRC_INIT (R121). -/
def execCrcInit (s : State) : Host.Outcome State Fault Refusal :=
  .next ({ s with crcAcc := crcInitial }.reply .ok)

/-- CRC_BYTE (R122). -/
def execCrcByte (b : Byte) (s : State) : Host.Outcome State Fault Refusal :=
  .next ({ s with crcAcc := crcByteStep s.crcAcc b }.reply .ok)

/-- CRC_BIT (R123). -/
def execCrcBit (d : Bool) (s : State) : Host.Outcome State Fault Refusal :=
  .next ({ s with crcAcc := crcBitStep s.crcAcc d }.reply .ok)

/-- CRC_READ (R125). -/
def execCrcRead (s : State) : Host.Outcome State Fault Refusal :=
  .next (s.replyWith (.crc s.crcAcc))

/-- CRC16 as an operation of its own (R103, R124): it reads and writes no block state. -/
def execCrc16 (data : List Byte) (length : Nat) (s : State) : Host.Outcome State Fault Refusal :=
  if data.length < length then .refused .shortData
  else .next (s.answer (.crc (crc16 (data.take length))))

end Sys2Proof.Machine
end

