-- ==== Sys2Proof/Machine/Idle.lean ====
section
/-! DEFINITION. The tick of a link without direction, and the reserved direction code (30_encoding.md). -/

namespace Sys2Proof.Machine

open Sys2Proof

/-- IDLE (R101): no register changes. In a reserved state, code 9 to 15, the tick is a fault (R104; log 24). -/
def execIdle (s : State) : Host.Outcome State Fault Refusal :=
  if 9 ≤ s.st.code.toNat then .fault .unreachableState else .next s

/-- RESERVED.DIR3 (R104): a tick with the direction code 3 is a fault. -/
def execReservedDir3 (_ : State) : Host.Outcome State Fault Refusal := .fault .unreachableState

end Sys2Proof.Machine
end

