-- ==== Sys2Proof/Machine/LineCode.lean ====
section
/-! DEFINITION. The combinational rows: line-code functions (41_line_code.md), wire words and symbols (30_encoding.md).
None reads or writes a register of the block (R146); each hands its value to the host's port (log 10). -/

namespace Sys2Proof.Machine

open Sys2Proof

/-- LC_ENC (R140). -/
def execLcEnc (n : BitVec 4) (s : State) : Host.Outcome State Fault Refusal :=
  .next (s.answer (.symbol (lcEncode s.cfg.lc n)))

/-- LC_DEC (R141). -/
def execLcDec (c : BitVec 5) (s : State) : Host.Outcome State Fault Refusal :=
  .next (s.answer (.nibble (lcDecode s.cfg.lc c)))

/-- WIRE_ENC (R142). -/
def execWireEnc (b : Byte) (s : State) : Host.Outcome State Fault Refusal :=
  .next (s.answer (.wireWord (wireEncode s.cfg b)))

/-- WIRE_DEC (R143). -/
def execWireDec (w : BitVec 10) (s : State) : Host.Outcome State Fault Refusal :=
  .next (s.answer (.byte (wireDecode s.cfg w)))

/-- WIRE.RAW (R91, R96): the RAW word of `b`, its slot on the line, and the byte it decodes to. -/
def execWireRaw (b : Byte) (s : State) : Host.Outcome State Fault Refusal :=
  .next (s.answer (slotInfo s.cfg .raw ((0b1#1 ++ b).zeroExtend 11)))

/-- WIRE.BALANCED (R94, R96): the word with the symbols `h` and `l`, its slot, and the byte it decodes to. -/
def execWireBalanced (h l : BitVec 5) (s : State) : Host.Outcome State Fault Refusal :=
  .next (s.answer (slotInfo s.cfg .balanced (0b1#1 ++ h ++ l)))

/-- WIRE.LEADOUT (R95, R96): the leadout word of the block's mode. -/
def execWireLeadout (s : State) : Host.Outcome State Fault Refusal :=
  .next (s.answer (slotInfo s.cfg s.cfg.coding (leadoutWord s.cfg)))

/-- LC5.0: the symbol `00100` (R92, R93), decoded by LC_DEC (R141). -/
def execLc5_0 (s : State) : Host.Outcome State Fault Refusal :=
  .next (s.answer (.nibble (lcDecode s.cfg.lc 0b00100)))

/-- LC5.1: the symbol `00101` (R92, R93), decoded by LC_DEC (R141). -/
def execLc5_1 (s : State) : Host.Outcome State Fault Refusal :=
  .next (s.answer (.nibble (lcDecode s.cfg.lc 0b00101)))

/-- LC5.2: the symbol `00110` (R92, R93), decoded by LC_DEC (R141). -/
def execLc5_2 (s : State) : Host.Outcome State Fault Refusal :=
  .next (s.answer (.nibble (lcDecode s.cfg.lc 0b00110)))

/-- LC5.3: the symbol `01001` (R92, R93), decoded by LC_DEC (R141). -/
def execLc5_3 (s : State) : Host.Outcome State Fault Refusal :=
  .next (s.answer (.nibble (lcDecode s.cfg.lc 0b01001)))

/-- LC5.4: the symbol `01010` (R92, R93), decoded by LC_DEC (R141). -/
def execLc5_4 (s : State) : Host.Outcome State Fault Refusal :=
  .next (s.answer (.nibble (lcDecode s.cfg.lc 0b01010)))

/-- LC5.5: the symbol `01011` (R92, R93), decoded by LC_DEC (R141). -/
def execLc5_5 (s : State) : Host.Outcome State Fault Refusal :=
  .next (s.answer (.nibble (lcDecode s.cfg.lc 0b01011)))

/-- LC5.6: the symbol `01100` (R92, R93), decoded by LC_DEC (R141). -/
def execLc5_6 (s : State) : Host.Outcome State Fault Refusal :=
  .next (s.answer (.nibble (lcDecode s.cfg.lc 0b01100)))

/-- LC5.7: the symbol `01101` (R92, R93), decoded by LC_DEC (R141). -/
def execLc5_7 (s : State) : Host.Outcome State Fault Refusal :=
  .next (s.answer (.nibble (lcDecode s.cfg.lc 0b01101)))

/-- LC5.8: the symbol `10010` (R92, R93), decoded by LC_DEC (R141). -/
def execLc5_8 (s : State) : Host.Outcome State Fault Refusal :=
  .next (s.answer (.nibble (lcDecode s.cfg.lc 0b10010)))

/-- LC5.9: the symbol `10011` (R92, R93), decoded by LC_DEC (R141). -/
def execLc5_9 (s : State) : Host.Outcome State Fault Refusal :=
  .next (s.answer (.nibble (lcDecode s.cfg.lc 0b10011)))

/-- LC5.A: the symbol `10100` (R92, R93), decoded by LC_DEC (R141). -/
def execLc5_A (s : State) : Host.Outcome State Fault Refusal :=
  .next (s.answer (.nibble (lcDecode s.cfg.lc 0b10100)))

/-- LC5.B: the symbol `10101` (R92, R93), decoded by LC_DEC (R141). -/
def execLc5_B (s : State) : Host.Outcome State Fault Refusal :=
  .next (s.answer (.nibble (lcDecode s.cfg.lc 0b10101)))

/-- LC5.C: the symbol `10110` (R92, R93), decoded by LC_DEC (R141). -/
def execLc5_C (s : State) : Host.Outcome State Fault Refusal :=
  .next (s.answer (.nibble (lcDecode s.cfg.lc 0b10110)))

/-- LC5.D: the symbol `11001` (R92, R93), decoded by LC_DEC (R141). -/
def execLc5_D (s : State) : Host.Outcome State Fault Refusal :=
  .next (s.answer (.nibble (lcDecode s.cfg.lc 0b11001)))

/-- LC5.E: the symbol `11010` (R92, R93), decoded by LC_DEC (R141). -/
def execLc5_E (s : State) : Host.Outcome State Fault Refusal :=
  .next (s.answer (.nibble (lcDecode s.cfg.lc 0b11010)))

/-- LC5.F: the symbol `11011` (R92, R93), decoded by LC_DEC (R141). -/
def execLc5_F (s : State) : Host.Outcome State Fault Refusal :=
  .next (s.answer (.nibble (lcDecode s.cfg.lc 0b11011)))

/-- LC5.INVALID: a symbol outside CODESET decodes to 0 and raises no error (R104, R141). -/
def execLc5Invalid (c : BitVec 5) (s : State) : Host.Outcome State Fault Refusal :=
  .next (s.answer (.nibble (lcDecode s.cfg.lc c)))

end Sys2Proof.Machine
end

