-- ==== Sys2Proof/Machine/Rx.lean ====
section
/-! DEFINITION. The receive tick rules (43_rx_fsm.md). The tick's `sample` is the level of `lineIn` (R190, R305). -/

namespace Sys2Proof.Machine

open Sys2Proof

/-- RX.START (R191). -/
def execRxStart (s : State) : Host.Outcome State Fault Refusal :=
  .next { s.beginRx with lockCount := 0, activity := false, st := .ready }

/-- RX.READY (R192). -/
def execRxReady (s : State) : Host.Outcome State Fault Refusal := .next (lockStep s.lineIn s.beginRx)

/-- RX.SYNC (R194). -/
def execRxSync (s : State) : Host.Outcome State Fault Refusal :=
  countdown (fun s => .next ({ s with activity := true }.enterPhase .payload s.cfg.tbyte)) s.beginRx

/-- Finish(PAYLOAD, v) (R196); a count out of range enters ERROR, `bitTimer` staying 1 (R302). -/
def finishRxPayload (v : Byte) (s : State) : Host.Outcome State Fault Refusal :=
  if 1 ≤ v.toNat ∧ v.toNat ≤ maxFrameSize then
    .next ({ s with payloadLength := v.setWidth 6, byteIndex := 0 }.enterPhase .data s.cfg.tbyte)
  else .next { s with activity := false, st := .error }

/-- RX.PAYLOAD (R195, R196). -/
def execRxPayload (s : State) : Host.Outcome State Fault Refusal := rxSlot finishRxPayload s.beginRx

/-- Finish(DATA, v) (R197). -/
def finishRxData (v : Byte) (s : State) : Host.Outcome State Fault Refusal :=
  match bufWrite s.byteIndex.toNat v s with
  | none => .fault .unreachableState
  | some s =>
    .next ({ s with byteIndex := s.byteIndex + 1 }.enterPhase
      (if s.byteIndex + 1 = s.payloadLength then .leadout else s.st) s.cfg.tbyte)

/-- RX.DATA (R195, R197). -/
def execRxData (s : State) : Host.Outcome State Fault Refusal := rxSlot finishRxData s.beginRx

/-- Finish(LEADOUT, v) (R198): the byte is ignored and `bitTimer` stays 1. -/
def finishRxLeadout (_ : Byte) (s : State) : Host.Outcome State Fault Refusal :=
  .next { s with activity := false, st := .recv }

/-- RX.LEADOUT (R195, R198). -/
def execRxLeadout (s : State) : Host.Outcome State Fault Refusal := rxSlot finishRxLeadout s.beginRx

/-- RX.RECV (R199): the frame is held, or with RECV_OVERWRITE a new one may lock on. -/
def execRxRecv (s : State) : Host.Outcome State Fault Refusal :=
  if s.cfg.recvOverwrite then .next (lockStep s.lineIn s.beginRx) else .next s.beginRx

/-- RX.ERROR (R200): no register but `phaseReq` (R190) changes (log 21). -/
def execRxError (s : State) : Host.Outcome State Fault Refusal := .next s.beginRx

/-- RX.UNREACHABLE, `st = STROBE` (R201). -/
def execRxUnreachableStrobe (_ : State) : Host.Outcome State Fault Refusal := .fault .unreachableState

/-- RX.UNREACHABLE, reserved state code 9 (R201). -/
def execRxUnreachable9 (_ : State) : Host.Outcome State Fault Refusal := .fault .unreachableState

/-- RX.UNREACHABLE, reserved state code 10 (R201). -/
def execRxUnreachable10 (_ : State) : Host.Outcome State Fault Refusal := .fault .unreachableState

/-- RX.UNREACHABLE, reserved state code 11 (R201). -/
def execRxUnreachable11 (_ : State) : Host.Outcome State Fault Refusal := .fault .unreachableState

/-- RX.UNREACHABLE, reserved state code 12 (R201). -/
def execRxUnreachable12 (_ : State) : Host.Outcome State Fault Refusal := .fault .unreachableState

/-- RX.UNREACHABLE, reserved state code 13 (R201). -/
def execRxUnreachable13 (_ : State) : Host.Outcome State Fault Refusal := .fault .unreachableState

/-- RX.UNREACHABLE, reserved state code 14 (R201). -/
def execRxUnreachable14 (_ : State) : Host.Outcome State Fault Refusal := .fault .unreachableState

/-- RX.UNREACHABLE, reserved state code 15 (R201). -/
def execRxUnreachable15 (_ : State) : Host.Outcome State Fault Refusal := .fault .unreachableState

end Sys2Proof.Machine
end

