-- ==== Sys2Proof/Machine/Tx.lean ====
section
/-! DEFINITION. The transmit tick rules (42_tx_fsm.md). -/

namespace Sys2Proof.Machine

open Sys2Proof

/-- TX.READY (R161). -/
def execTxReady (s : State) : Host.Outcome State Fault Refusal :=
  .next { s with lineOut := false, activity := false }

/-- TX.START (R162). -/
def execTxStart (s : State) : Host.Outcome State Fault Refusal :=
  .next ({ s with activity := true, lineOut := false }.enterPhase .strobe s.cfg.nStrobe)

/-- TX.STROBE (R163). -/
def execTxStrobe (s : State) : Host.Outcome State Fault Refusal :=
  countdown (fun s => .next (s.enterPhase .sync s.cfg.nSync)) { s with lineOut := !s.lineOut }

/-- TX.SYNC (R164). -/
def execTxSync (s : State) : Host.Outcome State Fault Refusal :=
  countdown (fun s => .next (s.enterPhase .payload s.cfg.tbyte))
    { s with lineOut := s.cfg.nSync / 2 < s.bitTimer }

/-- The end of the PAYLOAD slot (R165). -/
def finishTxPayload (s : State) : Host.Outcome State Fault Refusal :=
  .next ({ s with byteIndex := 0 }.enterPhase (if s.payloadLength = 0 then .leadout else .data) s.cfg.tbyte)

/-- TX.PAYLOAD (R165). -/
def execTxPayload (s : State) : Host.Outcome State Fault Refusal :=
  txSlot (wireEncode s.cfg (s.payloadLength.zeroExtend 8)) finishTxPayload s

/-- The end of a DATA slot (R166). -/
def finishTxData (s : State) : Host.Outcome State Fault Refusal :=
  .next ({ s with byteIndex := s.byteIndex + 1 }.enterPhase
    (if s.byteIndex + 1 = s.payloadLength then .leadout else s.st) s.cfg.tbyte)

/-- TX.DATA (R166). -/
def execTxData (s : State) : Host.Outcome State Fault Refusal :=
  match bufRead s.byteIndex.toNat s with
  | none => .fault .unreachableState
  | some b => txSlot (wireEncode s.cfg b) finishTxData s

/-- TX.LEADOUT (R167): the countdown ends at 0, with no reload. -/
def execTxLeadout (s : State) : Host.Outcome State Fault Refusal :=
  txSlot (leadoutWord s.cfg) (fun s => .next { s with st := .ready }) s

/-- TX.UNREACHABLE, `st = RECV` (R168). -/
def execTxUnreachableRecv (_ : State) : Host.Outcome State Fault Refusal := .fault .unreachableState

/-- TX.UNREACHABLE, `st[3] = 1` (R168). -/
def execTxUnreachableHigh (_ : State) : Host.Outcome State Fault Refusal := .fault .unreachableState

end Sys2Proof.Machine
end

