-- ==== Sys2Proof/Machine/Dispatch.lean ====
section
/-! DEFINITION. One arm per instruction. -/

namespace Sys2Proof.Machine

open Sys2Proof

def exec (i : Instr) (s : State) : Host.Outcome State Fault Refusal :=
  match i with
  | .idle _ => Sys2Proof.Machine.execIdle s
  | .txReady => Sys2Proof.Machine.execTxReady s
  | .txStart => Sys2Proof.Machine.execTxStart s
  | .txStrobe => Sys2Proof.Machine.execTxStrobe s
  | .txSync => Sys2Proof.Machine.execTxSync s
  | .txPayload => Sys2Proof.Machine.execTxPayload s
  | .txData => Sys2Proof.Machine.execTxData s
  | .txLeadout => Sys2Proof.Machine.execTxLeadout s
  | .txUnreachableRecv => Sys2Proof.Machine.execTxUnreachableRecv s
  | .txUnreachableHigh _ => Sys2Proof.Machine.execTxUnreachableHigh s
  | .rxReady => Sys2Proof.Machine.execRxReady s
  | .rxStart => Sys2Proof.Machine.execRxStart s
  | .rxUnreachableStrobe => Sys2Proof.Machine.execRxUnreachableStrobe s
  | .rxSync => Sys2Proof.Machine.execRxSync s
  | .rxPayload => Sys2Proof.Machine.execRxPayload s
  | .rxData => Sys2Proof.Machine.execRxData s
  | .rxLeadout => Sys2Proof.Machine.execRxLeadout s
  | .rxRecv => Sys2Proof.Machine.execRxRecv s
  | .rxError => Sys2Proof.Machine.execRxError s
  | .rxUnreachable9 => Sys2Proof.Machine.execRxUnreachable9 s
  | .rxUnreachable10 => Sys2Proof.Machine.execRxUnreachable10 s
  | .rxUnreachable11 => Sys2Proof.Machine.execRxUnreachable11 s
  | .rxUnreachable12 => Sys2Proof.Machine.execRxUnreachable12 s
  | .rxUnreachable13 => Sys2Proof.Machine.execRxUnreachable13 s
  | .rxUnreachable14 => Sys2Proof.Machine.execRxUnreachable14 s
  | .rxUnreachable15 => Sys2Proof.Machine.execRxUnreachable15 s
  | .reservedDir3 _ => Sys2Proof.Machine.execReservedDir3 s
  | .configure rate d => Sys2Proof.Machine.execConfigure rate d s
  | .transmit n data => Sys2Proof.Machine.execTransmit n data s
  | .receive => Sys2Proof.Machine.execReceive s
  | .setAddress addr => Sys2Proof.Machine.execSetAddress addr s
  | .crcInit => Sys2Proof.Machine.execCrcInit s
  | .crcByte b => Sys2Proof.Machine.execCrcByte b s
  | .crcBit d => Sys2Proof.Machine.execCrcBit d s
  | .crcRead => Sys2Proof.Machine.execCrcRead s
  | .reservedCmd _ => Sys2Proof.Machine.execReservedCmd s
  | .lcEnc n => Sys2Proof.Machine.execLcEnc n s
  | .lcDec c => Sys2Proof.Machine.execLcDec c s
  | .wireEnc b => Sys2Proof.Machine.execWireEnc b s
  | .wireDec w => Sys2Proof.Machine.execWireDec w s
  | .crc16 data n => Sys2Proof.Machine.execCrc16 data n s
  | .wireRaw b => Sys2Proof.Machine.execWireRaw b s
  | .wireBalanced h l => Sys2Proof.Machine.execWireBalanced h l s
  | .wireLeadout => Sys2Proof.Machine.execWireLeadout s
  | .lc5_0 => Sys2Proof.Machine.execLc5_0 s
  | .lc5_1 => Sys2Proof.Machine.execLc5_1 s
  | .lc5_2 => Sys2Proof.Machine.execLc5_2 s
  | .lc5_3 => Sys2Proof.Machine.execLc5_3 s
  | .lc5_4 => Sys2Proof.Machine.execLc5_4 s
  | .lc5_5 => Sys2Proof.Machine.execLc5_5 s
  | .lc5_6 => Sys2Proof.Machine.execLc5_6 s
  | .lc5_7 => Sys2Proof.Machine.execLc5_7 s
  | .lc5_8 => Sys2Proof.Machine.execLc5_8 s
  | .lc5_9 => Sys2Proof.Machine.execLc5_9 s
  | .lc5_A => Sys2Proof.Machine.execLc5_A s
  | .lc5_B => Sys2Proof.Machine.execLc5_B s
  | .lc5_C => Sys2Proof.Machine.execLc5_C s
  | .lc5_D => Sys2Proof.Machine.execLc5_D s
  | .lc5_E => Sys2Proof.Machine.execLc5_E s
  | .lc5_F => Sys2Proof.Machine.execLc5_F s
  | .lc5Invalid c => Sys2Proof.Machine.execLc5Invalid c s

end Sys2Proof.Machine
end

