-- ==== Sys2Proof/Machine/Tick.lean ====
section
/-! DEFINITION. The tick agent: one tick runs the rule its key selects (R6, R100, R304). -/

namespace Sys2Proof.Machine

open Sys2Proof

/-- One firing of the tick source with the line at `level`. While `tickEnable` is 0 no tick occurs (R43, log 5). -/
def runTick (level : Bool) (s : State) : Host.Outcome State Fault Refusal :=
  if tickMayRun s then exec (decodeTick s.key) (tickEntry level s) else .next s

end Sys2Proof.Machine
end

