-- ==== Sys2Proof/Machine/Clock.lean ====
section
/-! DEFINITION. The clock level: the tick generator and the RX phase correction (60_exceptions.md R312 to R317). -/

namespace Sys2Proof.Machine

open Sys2Proof

/-- The end of a spin (R316): the next tick fires `PHASE_DELAY` prescaled clocks later,
`tcnt <- compare + 1 - PHASE_DELAY`, in the counter's `CMP_WIDTH` bits (log 13). -/
def endSpin (s : State) : State :=
  { s with
    spin := none
    tcnt := (s.compare + 1 + (2 ^ s.cfg.cmpWidth - phaseDelayOf s.cfg.phaseDelay s.compare % 2 ^ s.cfg.cmpWidth))
      % 2 ^ s.cfg.cmpWidth }

/-- The spin after `n` prescaled clocks (R316): it ends where the line is low or the bound is reached, else it goes on. -/
def spinAt (n : Nat) (s : State) : State :=
  if !s.lineIn || spinBoundReached s.cfg.spinMax s.compare n then endSpin s else { s with spin := some n }

/-- The generator fires one tick (R313); an RX tick that set `phaseReq` goes on into its spin (R316). -/
def fireTick (s : State) : Host.Outcome State Fault Refusal :=
  match runTick s.lineIn s with
  | .next t => .next (if s.dir = .receive ∧ t.phaseReq then spinAt 0 t else t)
  | o => o

/-- The counter on a prescaled clock edge (R313): clear on compare, else count, in `CMP_WIDTH` bits (log 13). -/
def countEdge (s : State) : State :=
  { s with tcnt := if s.tcnt = s.compare then 0 else (s.tcnt + 1) % 2 ^ s.cfg.cmpWidth }

/-- One edge of the prescaled clock (R313). A stopped prescaler has none (R312). During a spin the counter stands still
(R313, R316). A tick that falls due while `tickEnable` is 0 waits (R307, R313; log 14). DESIGN CHOICE (log 25): a tick that
waits and a compare match at the same edge, or a second match while it waits, are one tick; and it fires at the next edge
with `tickEnable` 1, whatever set `tcnt` to 0 meanwhile. -/
def clockEdge (level : Bool) (s : State) : Host.Outcome State Fault Refusal :=
  let s := { s with lineIn := level }
  match s.spin with
  | some n => .next (spinAt (n + 1) s)
  | none =>
    if s.prescaler = .stopped then .next s
    else
      let due := s.tcnt = s.compare ∨ s.tickDue
      let s := countEdge s
      if ¬ due then .next s
      else if s.tickEnable then fireTick { s with tickDue := false }
      else .next { s with tickDue := true }

end Sys2Proof.Machine
end

