-- ==== Sys2Proof/Machine/Transport.lean ====
section
/-! DEFINITION. The addressed transport layer, host software over the block's commands (45_transport_context.md). -/

namespace Sys2Proof.Machine

open Sys2Proof

/-- Destination, source and payload of a transport frame (R106, R261). -/
def transportHead (order : HostOrder) (dst src : BitVec 16) (payload : List Byte) : List Byte :=
  put16 order dst ++ put16 order src ++ payload

/-- A whole transport frame: the head and its CRC (R106, R261). -/
def transportFrame (order : HostOrder) (dst src : BitVec 16) (payload : List Byte) : List Byte :=
  transportHead order dst src payload ++ put16 order (crc16 (transportHead order dst src payload))

/-- SEND (R261). -/
def send (dst : BitVec 16) (length : Nat) (data : List Byte) (s : State) : Host.Outcome State Fault Refusal :=
  if s.ownAddress = 0 then .next (s.reply .configError)
  else
    let m := min length maxDataSize
    if data.length < m then .refused .shortData
    else execTransmit (6 + m) (transportFrame s.cfg.hostOrder dst s.ownAddress (data.take m)) s

/-- `Valid(f)` (R128) of a received frame of `n` bytes. -/
def frameValid (order : HostOrder) (f : List Byte) (n : Nat) : Bool :=
  crc16 (f.take (n - 2)) = get16 order f (n - 2)

/-- Whether a frame's destination passes the address filter (R262, R264). -/
def addressAccepted (order : HostOrder) (own : BitVec 16) (f : List Byte) : Bool :=
  get16 order f 0 = own || get16 order f 0 = broadcast

/-- RECV hands a result to its caller and is over. -/
def State.recvDone (r : HostReturn) (s : State) : State := { s with hostReturn := r, recvActive := false }

/-- What RECV does with the outcome of one RECEIVE (R262): `before` is the return the host had before this call, kept
when the frame is filtered, since a filtered frame is never surfaced (R264). -/
def recvJudge (before : HostReturn) (s : State) : State :=
  match s.hostReturn.info with
  | .frame n f =>
    if n.toNat < 6 then s.recvDone (.result .crcError)
    else if !addressAccepted s.cfg.hostOrder s.ownAddress f then { s with hostReturn := before }
    else if !frameValid s.cfg.hostOrder f n.toNat then s.recvDone (.result .crcError)
    else
      s.recvDone
        { code := some .ok
          info := .message (get16 s.cfg.hostOrder f 2) ((f.drop 4).take (n.toNat - 6)) (n.toNat - 6) }
  | _ => s.recvDone s.hostReturn

/-- One step of RECV's loop (R262): the next step of its RECEIVE, judged once that call has returned. -/
def recvPoll (s : State) : Host.Outcome State Fault Refusal :=
  match execReceive s with
  | .next t => .next (if t.receivePending then t else recvJudge s.hostReturn t)
  | o => o

/-- RECV (R262): the address check, then the first step of the loop. -/
def recvStart (s : State) : Host.Outcome State Fault Refusal :=
  if s.ownAddress = 0 then .next (s.reply .configError) else recvPoll { s with recvActive := true }

end Sys2Proof.Machine
end

