-- ==== Sys2Proof/Machine/Agents.lean ====
section
/-! DEFINITION. Whose turn it is (R6, R81): the host agent's turn, a turn of any agent, and how an instruction is placed
where the next step finds it. -/

namespace Sys2Proof.Machine

open Sys2Proof

/-- A call the host issues: a code is decoded and executed; SEND and RECV run as host software. -/
def runCall (c : HostCall) (s : State) : Host.Outcome State Fault Refusal :=
  match c with
  | .code h =>
    match decodeHost h with
    | .ok i => exec i s
    | .error e => .refused (.undecodable e)
  | .send dst length data => send dst length data s
  | .recv => recvStart s

/-- The host agent's next step. A tick step that is still spinning is not interrupted (R308, log 15); a call in progress
goes on (R82, R262); otherwise the oldest waiting call is issued. -/
def hostTurn (s : State) : Host.Outcome State Fault Refusal :=
  if s.spin.isSome then .next s
  else if s.recvActive then recvPoll s
  else if s.receivePending then exec .receive s
  else
    match s.hostQueue with
    | [] => .next s
    | c :: q => runCall c { s with hostQueue := q }

/-- One turn (R81). -/
def takeTurn (t : Turn) (s : State) : Host.Outcome State Fault Refusal :=
  match t with
  | .tick level => runTick level s
  | .clock level => clockEdge level s
  | .host => hostTurn s

/-- The countdown with which a link of direction `dir` enters the timed phase `st` (R162 to R166, R193, R194, R196,
R197), and so the largest value `bitTimer` has in it (R51); none for a state that does not read the timer. -/
def phaseTicks (cfg : Config) (dir : Dir) (st : LinkState) : Option Nat :=
  match dir, st with
  | .transmit, .strobe => some cfg.nStrobe
  | .transmit, .sync => some cfg.nSync
  | .receive, .sync => some (cfg.nSync / 2 - 1)
  | .transmit, .payload => some cfg.tbyte
  | .transmit, .data => some cfg.tbyte
  | .transmit, .leadout => some cfg.tbyte
  | .receive, .payload => some cfg.tbyte
  | .receive, .data => some cfg.tbyte
  | .receive, .leadout => some cfg.tbyte
  | _, _ => none

/-- Placing a code where the next step runs it: a tick key becomes the link's `(dir, st)` at the entry of its phase with
ticks enabled and a tick's turn next; a host code becomes the host's next call with the host's turn next (log 9). -/
def placeCode (c : Code) (s : State) : State :=
  match c with
  | .tick key =>
    let dir := Dir.ofCode (key.extractLsb' 4 2)
    let st := LinkState.ofCode (key.extractLsb' 0 4)
    { s with
      dir := dir
      st := st
      bitTimer := (phaseTicks s.cfg dir st).getD s.bitTimer
      byteIndex := 0
      tickEnable := true
      spin := none
      schedule := .tick s.lineIn :: s.schedule }
  | .host h =>
    { s with
      spin := none
      receivePending := false
      recvActive := false
      hostQueue := .code h :: s.hostQueue
      schedule := .host :: s.schedule }

/-- Placing a table word; a word that is no code of the table is placed as a code the decoder rejects. -/
def placeTableWord (nbits w : Nat) (s : State) : State :=
  placeCode ((tableCode nbits w).getD (.host (.wire9 0))) s

end Sys2Proof.Machine
end

