-- ==== Sys2Proof/Machine/Step.lean ====
section
/-! DEFINITION. One step of the machine: the next turn of the schedule (R13, R81). -/

namespace Sys2Proof.Machine

open Sys2Proof

/-- The agent whose turn is next takes one atomic step. With no turn left nothing moves (log 2). -/
def step (s : State) : Host.Outcome State Fault Refusal :=
  match s.schedule with
  | [] => .next s
  | t :: ts => takeTurn t { s with schedule := ts }

/-- `s` with the instruction of a table word placed where `step` finds its next instruction (log 9). -/
def State.withFetchWord (s : State) (nbits w : Nat) : State := placeTableWord nbits w s

end Sys2Proof.Machine
end

