-- ==== Sys2Proof/Machine/Channel.lean ====
section
/-! DEFINITION. The aligned channel of R318, a harness premise and not a property of the block: a TX link and the RX links
that hear it tick in lockstep, the TX link first, each RX sample being the TX link's new `lineOut`. -/

namespace Sys2Proof.Machine

open Sys2Proof

/-- A transmitter and its receivers, each a link of its own (R320). -/
structure Links where
  tx  : State
  rxs : List State
  deriving DecidableEq, Repr

/-- One tick of every receiver with the line at `level`. -/
def tickReceivers (level : Bool) : List State → Host.Outcome (List State) Fault Refusal
  | [] => .next []
  | r :: rs =>
    match runTick level r, tickReceivers level rs with
    | .next r', .next rs' => .next (r' :: rs')
    | .fault f, _ => .fault f
    | .refused e, _ => .refused e
    | _, o => o

/-- One global tick (R318). -/
def alignedTick (l : Links) : Host.Outcome Links Fault Refusal :=
  match runTick l.tx.lineIn l.tx with
  | .next tx =>
    match tickReceivers tx.lineOut l.rxs with
    | .next rxs => .next ⟨tx, rxs⟩
    | .fault f => .fault f
    | .refused e => .refused e
  | .fault f => .fault f
  | .refused e => .refused e

/-- The directive `TICK n` (R107). -/
def alignedTicks : Nat → Links → Host.Outcome Links Fault Refusal
  | 0, l => .next l
  | n + 1, l =>
    match alignedTick l with
    | .next l' => alignedTicks n l'
    | .fault f => .fault f
    | .refused e => .refused e

/-- `n` ticks of one link, the line held at a level (the TX machine never reads it, R160). -/
def ticks (level : Bool) : Nat → State → Host.Outcome State Fault Refusal
  | 0, s => .next s
  | n + 1, s =>
    match runTick level s with
    | .next s' => ticks level n s'
    | .fault f => .fault f
    | .refused e => .refused e

end Sys2Proof.Machine
end

