-- ==== Sys2Proof/Machine/Harness.lean ====
section
/-! DEFINITION. The harness directives of the program notation (R107), as turns and calls. `TICK n` is `alignedTicks`. -/

namespace Sys2Proof.Machine

open Sys2Proof

/-- `INPUT "<bits>"`: one RX tick per sample. -/
def inputTurns (bits : List Bool) : List Turn := bits.map .tick

/-- The pseudo-instruction `CRC16 [b0, ...]`: CRC_INIT, one CRC_BYTE per byte in order, CRC_READ. -/
def crc16Calls (data : List Byte) : List HostCall :=
  [.code (.cmd 0x4 {})] ++ data.map (fun b => .code (.cmd 0x5 { b := b })) ++ [.code (.cmd 0x7 {})]

/-- The pseudo-instruction `SENDT dst, [p0, ...]` at a node with address `src`: the CRC16 pseudo-instruction over header
and payload, then one TRANSMIT of the frame of R261. -/
def sendtCalls (order : HostOrder) (dst src : BitVec 16) (payload : List Byte) : List HostCall :=
  let m := payload.take maxDataSize
  crc16Calls (transportHead order dst src m) ++
    [.code (.cmd 0x1 { length := 6 + m.length, data := transportFrame order dst src m })]

/-- A sequence of instructions, one after the other. -/
def execAll : List Instr → State → Host.Outcome State Fault Refusal
  | [], s => .next s
  | i :: is, s =>
    match exec i s with
    | .next t => execAll is t
    | o => o

/-- The bits of a byte, most significant first (R73, R123). -/
def msbFirst (b : Byte) : List Bool := (List.range 8).map (fun j => b.getLsbD (7 - j))

/-- A sequence of prescaled clock edges, each with the line's level. -/
def clockEdges : List Bool → State → Host.Outcome State Fault Refusal
  | [], s => .next s
  | b :: bs, s =>
    match clockEdge b s with
    | .next t => clockEdges bs t
    | o => o

end Sys2Proof.Machine
end

