-- ==== Sys2Proof/Safety.lean ====
section
/-! DEFINITION. What counts as a good state and a safe run, in the terms the statements use. -/

namespace Sys2Proof

open Sys2Proof.Machine

/-- The states the FSM of each direction uses (R97, R168, R201); a link without direction stays in READY (R101, R340). -/
def stateLegal (dir : Dir) (st : LinkState) : Bool :=
  match dir, st with
  | .none, .ready => true
  | .transmit, .ready | .transmit, .start | .transmit, .strobe | .transmit, .sync => true
  | .transmit, .payload | .transmit, .data | .transmit, .leadout => true
  | .receive, .ready | .receive, .start | .receive, .sync | .receive, .payload => true
  | .receive, .data | .receive, .leadout | .receive, .recv | .receive, .error => true
  | _, _ => false

/-- The invariant of a link: the clauses of R51, the register widths of 10_state.md, and what the model adds (the last
four fields). -/
structure Inv (s : State) : Prop where
  /-- The parameters meet R9. -/
  cfgValid : s.cfg.Valid
  /-- The frame buffer is canonical: indices below 40 (R70). -/
  bufferWf : s.frameBuffer.wf = true
  /-- `payloadLength <= MAX_FRAME_SIZE` (R51). -/
  lengthBound : s.payloadLength.toNat ≤ maxFrameSize
  /-- `byteIndex` is 0 to 40 (R35). -/
  indexBound : s.byteIndex.toNat ≤ maxFrameSize
  /-- `byteIndex < payloadLength` while `st = DATA` (R51). -/
  indexInFrame : s.st = .data → s.byteIndex.toNat < s.payloadLength.toNat
  /-- `byteIndex <= payloadLength` after a frame's slots (R170, R203; log 26 says where that does not hold). -/
  indexAfterFrame : s.st = .leadout ∨ s.st = .recv → s.byteIndex.toNat ≤ s.payloadLength.toNat
  /-- `bitTimer` is between 1 and the phase's length in every timed phase (R51). -/
  timerInPhase : ∀ m, phaseTicks s.cfg s.dir s.st = some m → 1 ≤ s.bitTimer ∧ s.bitTimer ≤ m
  /-- `lockCount <= N_SYNC/2 + 1` (R39, R51). -/
  lockBound : s.lockCount ≤ s.cfg.nSync / 2 + 1
  /-- For RX, `1 <= payloadLength` while `st` is DATA, LEADOUT or RECV (R51). -/
  rxLengthPositive : s.dir = .receive → s.st = .data ∨ s.st = .leadout ∨ s.st = .recv → 1 ≤ s.payloadLength.toNat
  /-- `shiftReg` has `W - 1` bits (R40). -/
  shiftWidth : s.shiftReg.toNat < 2 ^ (wireLength s.cfg - 1)
  /-- `compare` has `CMP_WIDTH` bits (R42). -/
  compareWidth : s.compare < 2 ^ s.cfg.cmpWidth
  /-- `tcnt` has `CMP_WIDTH` bits (R44). -/
  tcntWidth : s.tcnt < 2 ^ s.cfg.cmpWidth
  /-- `baud` is 0 until CONFIGURE and then a legal rate (R42). -/
  baudLegal : s.baud = 0 ∨ 100 ≤ s.baud.toNat ∧ s.baud.toNat ≤ 5000
  /-- The direction and state codes are ones the rules write (R98, R168, R201). -/
  statesLegal : stateLegal s.dir s.st = true
  /-- The tick source is enabled exactly when a prescaler is selected (R42, R43, R231). -/
  enabledIffConfigured : s.tickEnable = true ↔ s.prescaler ≠ .stopped
  /-- So no tick ever falls due while it is disabled (R307). -/
  noTickWaits : s.tickDue = false
  /-- Only a Receive link is between the two phases of a RECEIVE (R235). -/
  pendingOnRx : s.receivePending = true → s.dir = .receive

/-- A link of parameters `cfg` after power-on reset, with a program loaded: the host's calls, the turns, and the size of
the host's output buffer. -/
def loaded (cfg : Config) (calls : List HostCall) (turns : List Turn) (capacity : Nat) : State :=
  { State.resetWith cfg with hostQueue := calls, schedule := turns, outCapacity := capacity }

/-- The transmit tick rules (keys `01 xxxx` that a run meets). -/
def Instr.isTxTick (i : Instr) : Bool :=
  i ∈ [.txReady, .txStart, .txStrobe, .txSync, .txPayload, .txData, .txLeadout]

/-- The receive tick rules (keys `10 xxxx` that a run meets). -/
def Instr.isRxTick (i : Instr) : Bool :=
  i ∈ [.rxReady, .rxStart, .rxSync, .rxPayload, .rxData, .rxLeadout, .rxRecv, .rxError]

/-- The ticks that a link's FSM takes from START to the end of a frame of `n` bytes (R170). -/
def frameTicks (cfg : Config) (n : Nat) : Nat := 1 + cfg.nStrobe + cfg.nSync + (n + 2) * cfg.tbyte

end Sys2Proof
end

