-- ==== Sys2Proof/Certificates/Slice0/Obligations.lean ====
section
/-! DEFINITION. The statements about the link block, each a formal reading of rules of spec/. Every statement about an
instruction gives its whole next state: a record `{ s with … }` says that every register not named, and so every byte
of the frame buffer where `frameBuffer` is not named, is unchanged. -/

open Sys2Proof Sys2Proof.Machine

/-! ### Encoding and dispatch -/

/-- One word of each format of the table, written out from its encoding, decodes to its row. That CONFIGURE with the
direction code 3 is rejected by the decoder, by name, is the model's reading of R98 (log 23). -/
def Obligations.TableWordsDecodeToTheirRows : Prop :=
  decode (.tick 0b010010) = .ok .txStrobe ∧
  decode (.tick 0b100111) = .ok .rxRecv ∧
  decode (.tick 0b000101) = .ok (.idle 0b0101) ∧
  decode (.tick 0b011101) = .ok (.txUnreachableHigh 0b101) ∧
  decode (.host (.cmd 0b0000 { rate := 1000, direction := 1 })) = .ok (.configure 1000 .transmit) ∧
  decode (.host (.cmd 0b0000 { rate := 1000, direction := 3 })) = .error .reservedDirection ∧
  decode (.host (.cmd 0b0101 { b := 0x41 })) = .ok (.crcByte 0x41) ∧
  decode (.host (.cmd 0b1011 {})) = .ok (.reservedCmd 0b011) ∧
  decode (.host (.wire9 0b101000001)) = .ok (.wireRaw 0x41) ∧
  decode (.host (.wire11 0b10101000101)) = .ok (.wireBalanced 0b01010 0b00101) ∧
  decode (.host (.wire9 0b001000001)) = .error .noFramingBit ∧
  decode (.host (.leadout11 0b10000000000)) = .ok .wireLeadout ∧
  decode (.host (.symbol 0b10110)) = .ok .lc5_C ∧
  decode (.host (.symbol 0b10111)) = .ok (.lc5Invalid 0b10111)

/-- Decoding gives back every well-formed instruction from its code. -/
def Obligations.DecodeOfEncodeIsTheInstruction : Prop :=
  ∀ (cfg : Config) (i : Instr), i.wellFormed cfg = true → decode (encode cfg i) = .ok i

/-- R100: the key `dir ++ st` selects the rule the table gives, for every direction and state code. -/
def Obligations.DispatchFollowsTheKeyTable : Prop :=
  (∀ st : LinkState, decodeTick (dispatchKey .none st) = .idle st.code) ∧
  decodeTick (dispatchKey .transmit .ready) = .txReady ∧
  decodeTick (dispatchKey .transmit .start) = .txStart ∧
  decodeTick (dispatchKey .transmit .strobe) = .txStrobe ∧
  decodeTick (dispatchKey .transmit .sync) = .txSync ∧
  decodeTick (dispatchKey .transmit .payload) = .txPayload ∧
  decodeTick (dispatchKey .transmit .data) = .txData ∧
  decodeTick (dispatchKey .transmit .leadout) = .txLeadout ∧
  decodeTick (dispatchKey .transmit .recv) = .txUnreachableRecv ∧
  decodeTick (dispatchKey .transmit .error) = .txUnreachableHigh 0 ∧
  (∀ k : Fin 7, decodeTick (dispatchKey .transmit (.reserved k)) = .txUnreachableHigh (BitVec.ofNat 3 (k.val + 1))) ∧
  decodeTick (dispatchKey .receive .ready) = .rxReady ∧
  decodeTick (dispatchKey .receive .start) = .rxStart ∧
  decodeTick (dispatchKey .receive .strobe) = .rxUnreachableStrobe ∧
  decodeTick (dispatchKey .receive .sync) = .rxSync ∧
  decodeTick (dispatchKey .receive .payload) = .rxPayload ∧
  decodeTick (dispatchKey .receive .data) = .rxData ∧
  decodeTick (dispatchKey .receive .leadout) = .rxLeadout ∧
  decodeTick (dispatchKey .receive .recv) = .rxRecv ∧
  decodeTick (dispatchKey .receive .error) = .rxError ∧
  decodeTick (dispatchKey .receive (.reserved 0)) = .rxUnreachable9 ∧
  decodeTick (dispatchKey .receive (.reserved 1)) = .rxUnreachable10 ∧
  decodeTick (dispatchKey .receive (.reserved 2)) = .rxUnreachable11 ∧
  decodeTick (dispatchKey .receive (.reserved 3)) = .rxUnreachable12 ∧
  decodeTick (dispatchKey .receive (.reserved 4)) = .rxUnreachable13 ∧
  decodeTick (dispatchKey .receive (.reserved 5)) = .rxUnreachable14 ∧
  decodeTick (dispatchKey .receive (.reserved 6)) = .rxUnreachable15 ∧
  (∀ st : LinkState, decodeTick (dispatchKey .reserved st) = .reservedDir3 st.code)

/-! ### Reset, invariant, safety -/

/-- R52: the reset value of every register, whatever the parameters. -/
def Obligations.PowerOnResetValues : Prop :=
  ∀ cfg : Config,
    let s := State.resetWith cfg
    s.dir = .none ∧ s.st = .ready ∧ (∀ i, s.frameBuffer.read i = 0) ∧ s.payloadLength = 0 ∧ s.byteIndex = 0 ∧
    s.bitTimer = 0 ∧ s.lineOut = false ∧ s.activity = false ∧ s.lockCount = 0 ∧ s.shiftReg = 0 ∧
    s.ownAddress = 0 ∧ s.baud = 0 ∧ s.prescaler = .stopped ∧ s.compare = 0 ∧ s.tickEnable = false ∧ s.tcnt = 0 ∧
    s.phaseReq = false ∧ s.crcAcc = 0xFFFF

/-- The invariant holds after reset for all valid parameters, and for `State.reset` (whose parameters are the model's
choice, log 1). -/
def Obligations.ResetMeetsTheInvariant : Prop :=
  (∀ cfg : Config, cfg.Valid → Inv (State.resetWith cfg)) ∧ Inv State.reset

/-- Every step keeps the invariant, from any state that has it. -/
def Obligations.EveryStepKeepsTheInvariant : Prop :=
  ∀ s t : State, Inv s → step s = .next t → Inv t

/-- Whatever the parameters, the host's program and the interleaving, a run from reset never faults, and every state it
comes to has the invariant. -/
def Obligations.EveryRunFromResetIsSafe : Prop :=
  ∀ (cfg : Config) (calls : List HostCall) (turns : List Turn) (capacity k : Nat), cfg.Valid →
    (∀ f, Host.Core.run Sys2Proof.core k (loaded cfg calls turns capacity) ≠ .fault f) ∧
    ∀ t : State, Host.Core.run Sys2Proof.core k (loaded cfg calls turns capacity) = .next t → Inv t

/-- No step changes the parameters: they are configuration. -/
def Obligations.NoStepChangesTheParameters : Prop :=
  ∀ s t : State, step s = .next t → t.cfg = s.cfg

/-- The columns of R50 that write: which instructions can change each register. -/
def Obligations.OnlyTheListedInstructionsWriteEachRegister : Prop :=
  ∀ (i : Instr) (s t : State), exec i s = .next t →
    (t.dir ≠ s.dir → ∃ r d, i = .configure r d) ∧
    (t.st ≠ s.st →
      i.isTxTick ∨ i.isRxTick ∨ (∃ r d, i = .configure r d) ∨ (∃ n data, i = .transmit n data) ∨ i = .receive) ∧
    (t.frameBuffer ≠ s.frameBuffer → i = .rxData ∨ ∃ n data, i = .transmit n data) ∧
    (t.payloadLength ≠ s.payloadLength → i = .rxPayload ∨ ∃ n data, i = .transmit n data) ∧
    (t.byteIndex ≠ s.byteIndex → i = .txPayload ∨ i = .txData ∨ i = .rxPayload ∨ i = .rxData) ∧
    (t.bitTimer ≠ s.bitTimer → i.isTxTick ∨ i.isRxTick) ∧
    (t.lineOut ≠ s.lineOut → i.isTxTick) ∧
    (t.activity ≠ s.activity → i.isTxTick ∨ i.isRxTick) ∧
    (t.lockCount ≠ s.lockCount → i.isRxTick ∨ ∃ r d, i = .configure r d) ∧
    (t.shiftReg ≠ s.shiftReg → i.isRxTick) ∧
    (t.ownAddress ≠ s.ownAddress → ∃ a, i = .setAddress a) ∧
    (t.baud ≠ s.baud ∨ t.prescaler ≠ s.prescaler ∨ t.compare ≠ s.compare ∨ t.tickEnable ≠ s.tickEnable →
      ∃ r d, i = .configure r d) ∧
    (t.tcnt ≠ s.tcnt → (∃ r d, i = .configure r d) ∨ ∃ n data, i = .transmit n data) ∧
    (t.phaseReq ≠ s.phaseReq → i.isRxTick) ∧
    (t.crcAcc ≠ s.crcAcc → i = .crcInit ∨ (∃ b, i = .crcByte b) ∨ ∃ d, i = .crcBit d)

/-! ### A step runs the decoded instruction -/

/-- A tick's turn, with ticks enabled and no spin running, runs the rule the link's key selects, on the state with the
turn taken and the line's level on the pin; with `tickEnable` 0 it runs no tick. -/
def Obligations.TickTurnRunsTheRuleOfTheKey : Prop :=
  ∀ (s : State) (b : Bool) (ts : List Turn), s.schedule = .tick b :: ts →
    (s.tickEnable = true → s.spin = none →
      step s = exec (decodeTick (dispatchKey s.dir s.st)) { s with schedule := ts, lineIn := b }) ∧
    (s.tickEnable = false → step s = .next { s with schedule := ts })

/-- A host turn is `hostTurn` on the state with the turn taken. With no spin running and no RECV in progress it runs the
critical phase of a RECEIVE whose check phase has passed (R82, R345); otherwise the oldest waiting call, taken out of the
queue: the instruction a code decodes to (a code the decoder rejects is refused with the decoder's reason), SEND, or RECV. -/
def Obligations.HostTurnRunsTheDecodedInstruction : Prop :=
  ∀ (s : State) (ts : List Turn), s.schedule = .host :: ts →
    step s = hostTurn { s with schedule := ts } ∧
    (s.spin = none → s.recvActive = false →
      (s.receivePending = true → step s = exec .receive { s with schedule := ts }) ∧
      (s.receivePending = false →
        (s.hostQueue = [] → step s = .next { s with schedule := ts }) ∧
        ∀ (c : HostCall) (q : List HostCall), s.hostQueue = c :: q →
          let u := { s with schedule := ts, hostQueue := q }
          (∀ h i, c = .code h → decode (.host h) = .ok i → step s = exec i u) ∧
          (∀ h e, c = .code h → decode (.host h) = .error e → step s = .refused (.undecodable e)) ∧
          (∀ dst length data, c = .send dst length data → step s = send dst length data u) ∧
          (c = .recv → step s = recvStart u)))

/-! ### Idle and unreachable ticks -/

/-- R101: key `00 xxxx`; a tick of a link without direction changes no register; a link that was never configured gets no
tick. The reserved state codes 9 to 15 are shut out here: by the model's reading of R104 (log 24) they fault, which
`UnreachableTicksFault` states. -/
def Obligations.IdleTickChangesNoRegister : Prop :=
  (∀ k : BitVec 4, decodeTick (0b00#2 ++ k) = .idle k) ∧
  (∀ (k : BitVec 4) (s : State), s.st.code.toNat < 9 → exec (.idle k) s = .next s) ∧
  (∀ (b : Bool) (s : State), s.dir = .none → s.st.code.toNat < 9 → s.tickEnable = true → s.spin = none →
    runTick b s = .next { s with lineIn := b }) ∧
  ∀ (b : Bool) (cfg : Config), runTick b (State.resetWith cfg) = .next (State.resetWith cfg)

/-- R104, R168, R201: a tick in a state the link's FSM does not have faults, and so does one with the reserved direction:
each such instruction, and so whatever the keys `01 0111`, `01 1xxx`, `10 0010`, `10 1001` to `10 1111` and `11 xxxx`
select. That IDLE faults too in a reserved state (keys `00 1001` to `00 1111`) is the model's reading of R104 against
R101 (log 24). -/
def Obligations.UnreachableTicksFault : Prop :=
  ∀ s : State,
    exec .txUnreachableRecv s = .fault .unreachableState ∧
    (∀ low, exec (.txUnreachableHigh low) s = .fault .unreachableState) ∧
    exec .rxUnreachableStrobe s = .fault .unreachableState ∧
    exec .rxUnreachable9 s = .fault .unreachableState ∧
    exec .rxUnreachable10 s = .fault .unreachableState ∧
    exec .rxUnreachable11 s = .fault .unreachableState ∧
    exec .rxUnreachable12 s = .fault .unreachableState ∧
    exec .rxUnreachable13 s = .fault .unreachableState ∧
    exec .rxUnreachable14 s = .fault .unreachableState ∧
    exec .rxUnreachable15 s = .fault .unreachableState ∧
    (∀ st, exec (.reservedDir3 st) s = .fault .unreachableState) ∧
    (9 ≤ s.st.code.toNat →
      (∀ k, exec (.idle k) s = .fault .unreachableState) ∧
      (s.dir = .none → exec (decodeTick (dispatchKey s.dir s.st)) s = .fault .unreachableState)) ∧
    ∀ k : BitVec 4,
      (7 ≤ k.toNat → exec (decodeTick (0b01#2 ++ k)) s = .fault .unreachableState) ∧
      (k.toNat = 2 ∨ 9 ≤ k.toNat → exec (decodeTick (0b10#2 ++ k)) s = .fault .unreachableState) ∧
      exec (decodeTick (0b11#2 ++ k)) s = .fault .unreachableState

/-- R51, R72 and the model's reading of them (log 6): a timed phase with `bitTimer` 0, a slot with `bitTimer` above TBYTE,
a buffer index of 40 or more and a frame of more than 40 bytes that RECEIVE is to copy out, in one step or two, are
unreachable states, and the tick or the RECEIVE that meets one faults. -/
def Obligations.BrokenCountersAndIndicesFault : Prop :=
  ∀ (s : State) (i : Instr),
    (i = .txStrobe ∨ i = .txSync ∨ i = .txPayload ∨ i = .txData ∨ i = .txLeadout ∨ i = .rxSync ∨ i = .rxPayload ∨
      i = .rxData ∨ i = .rxLeadout → s.bitTimer = 0 → exec i s = .fault .unreachableState) ∧
    (i = .txPayload ∨ i = .txData ∨ i = .txLeadout ∨ i = .rxPayload ∨ i = .rxData ∨ i = .rxLeadout →
      s.cfg.tbyte < s.bitTimer → exec i s = .fault .unreachableState) ∧
    (maxFrameSize ≤ s.byteIndex.toNat → exec .txData s = .fault .unreachableState) ∧
    (maxFrameSize ≤ s.byteIndex.toNat → s.bitTimer = 1 → exec .rxData s = .fault .unreachableState) ∧
    (maxFrameSize < s.payloadLength.toNat → s.receivePending = true → s.st ≠ .error →
      exec .receive s = .fault .unreachableState) ∧
    (maxFrameSize < s.payloadLength.toNat → s.receivePending = false → s.dir = .receive → s.st = .recv →
      s.cfg.recvOverwrite = false → exec .receive s = .fault .unreachableState)

/-! ### Transmit ticks -/

/-- R161, R162: keys `01 0000` and `01 0001`. -/
def Obligations.TxReadyAndStartTicks : Prop :=
  decodeTick 0b01_0000 = .txReady ∧ decodeTick 0b01_0001 = .txStart ∧
  ∀ s : State,
    exec .txReady s = .next { s with lineOut := false, activity := false } ∧
    exec .txStart s =
      .next { s with activity := true, lineOut := false, bitTimer := s.cfg.nStrobe, st := .strobe }

/-- R163: key `01 0010`. -/
def Obligations.TxStrobeTick : Prop :=
  decodeTick 0b01_0010 = .txStrobe ∧
  ∀ s : State,
    (2 ≤ s.bitTimer → exec .txStrobe s = .next { s with lineOut := !s.lineOut, bitTimer := s.bitTimer - 1 }) ∧
    (s.bitTimer = 1 →
      exec .txStrobe s = .next { s with lineOut := !s.lineOut, st := .sync, bitTimer := s.cfg.nSync })

/-- R164: key `01 0011`. -/
def Obligations.TxSyncTick : Prop :=
  decodeTick 0b01_0011 = .txSync ∧
  ∀ s : State,
    (2 ≤ s.bitTimer →
      exec .txSync s =
        .next { s with lineOut := decide (s.bitTimer > s.cfg.nSync / 2), bitTimer := s.bitTimer - 1 }) ∧
    (s.bitTimer = 1 →
      exec .txSync s =
        .next { s with
          lineOut := decide (s.bitTimer > s.cfg.nSync / 2), st := .payload, bitTimer := s.cfg.tbyte })

/-- R165: key `01 0100`; with `k = TBYTE - bitTimer`, the line takes slot bit `k` of the count's wire word. -/
def Obligations.TxPayloadTick : Prop :=
  decodeTick 0b01_0100 = .txPayload ∧
  ∀ s : State,
    let level := slotBit s.cfg (wireEncode s.cfg (s.payloadLength.zeroExtend 8)) (s.cfg.tbyte - s.bitTimer)
    (2 ≤ s.bitTimer → s.bitTimer ≤ s.cfg.tbyte →
      exec .txPayload s = .next { s with lineOut := level, bitTimer := s.bitTimer - 1 }) ∧
    (s.bitTimer = 1 → 1 ≤ s.cfg.tbyte →
      exec .txPayload s =
        .next { s with
          lineOut := level
          byteIndex := 0
          bitTimer := s.cfg.tbyte
          st := if s.payloadLength = 0 then .leadout else .data })

/-- R166: key `01 0101`; with `k = TBYTE - bitTimer`, the line takes slot bit `k` of the current byte's wire word. -/
def Obligations.TxDataTick : Prop :=
  decodeTick 0b01_0101 = .txData ∧
  ∀ s : State, s.st = .data → s.byteIndex.toNat < maxFrameSize →
    let level :=
      slotBit s.cfg (wireEncode s.cfg (s.frameBuffer.read s.byteIndex.toNat)) (s.cfg.tbyte - s.bitTimer)
    (2 ≤ s.bitTimer → s.bitTimer ≤ s.cfg.tbyte →
      exec .txData s = .next { s with lineOut := level, bitTimer := s.bitTimer - 1 }) ∧
    (s.bitTimer = 1 → 1 ≤ s.cfg.tbyte →
      exec .txData s =
        .next { s with
          lineOut := level
          byteIndex := s.byteIndex + 1
          bitTimer := s.cfg.tbyte
          st := if s.byteIndex.toNat + 1 = s.payloadLength.toNat then .leadout else .data })

/-- R167: key `01 0110`; the leadout word is `1 << (W-1)`; the last tick leaves `bitTimer` 0 and enters READY. -/
def Obligations.TxLeadoutTick : Prop :=
  decodeTick 0b01_0110 = .txLeadout ∧
  ∀ s : State,
    let w : BitVec 11 := BitVec.ofNat 11 (2 ^ (s.cfg.coding.wireLength - 1))
    let level := slotBit s.cfg w (s.cfg.tbyte - s.bitTimer)
    (2 ≤ s.bitTimer → s.bitTimer ≤ s.cfg.tbyte →
      exec .txLeadout s = .next { s with lineOut := level, bitTimer := s.bitTimer - 1 }) ∧
    (s.bitTimer = 1 → 1 ≤ s.cfg.tbyte →
      exec .txLeadout s = .next { s with lineOut := level, bitTimer := 0, st := .ready })

/-! ### Receive ticks -/

/-- R191: key `10 0001`, with the `phaseReq <- 0` of R190. -/
def Obligations.RxStartTick : Prop :=
  decodeTick 0b10_0001 = .rxStart ∧
  ∀ s : State,
    exec .rxStart s = .next { s with phaseReq := false, lockCount := 0, activity := false, st := .ready }

/-- R192, R193: key `10 0000`; a 1 counts, saturating; a 0 after exactly `N_SYNC/2` ones locks on; any other 0 resets the count. -/
def Obligations.RxReadyTick : Prop :=
  decodeTick 0b10_0000 = .rxReady ∧
  ∀ s : State,
    (s.lineIn = true →
      exec .rxReady s =
        .next { s with phaseReq := false, lockCount := min (s.lockCount + 1) (s.cfg.nSync / 2 + 1) }) ∧
    (s.lineIn = false → s.lockCount = s.cfg.nSync / 2 →
      exec .rxReady s =
        .next { s with phaseReq := false, lockCount := 0, st := .sync, bitTimer := s.cfg.nSync / 2 - 1 }) ∧
    (s.lineIn = false → s.lockCount ≠ s.cfg.nSync / 2 →
      exec .rxReady s = .next { s with phaseReq := false, lockCount := 0 })

/-- R194: key `10 0011`. -/
def Obligations.RxSyncTick : Prop :=
  decodeTick 0b10_0011 = .rxSync ∧
  ∀ s : State,
    (2 ≤ s.bitTimer → exec .rxSync s = .next { s with phaseReq := false, bitTimer := s.bitTimer - 1 }) ∧
    (s.bitTimer = 1 →
      exec .rxSync s =
        .next { s with phaseReq := false, activity := true, bitTimer := s.cfg.tbyte, st := .payload })

/-- R195, for the tick rule `i` of a slot state: the slot's ticks before its last. With `k = TBYTE - bitTimer`: the framing
bit is discarded and asks for the phase correction, ticks 1 to `W-1` shift a bit in, gap ticks change nothing. -/
def Sys2Proof.SlotTicks (i : Instr) (s : State) : Prop :=
  2 ≤ s.bitTimer → s.bitTimer ≤ s.cfg.tbyte →
    let k := s.cfg.tbyte - s.bitTimer
    let w := s.cfg.coding.wireLength
    (k = 0 →
      exec i s = .next { s with phaseReq := true, shiftReg := 0, bitTimer := s.bitTimer - 1 }) ∧
    (1 ≤ k → k ≤ w - 1 →
      exec i s =
        .next { s with
          phaseReq := false
          shiftReg := BitVec.ofNat 10 ((2 * s.shiftReg.toNat + s.lineIn.toNat) % 2 ^ (w - 1))
          bitTimer := s.bitTimer - 1 }) ∧
    (w ≤ k → exec i s = .next { s with phaseReq := false, bitTimer := s.bitTimer - 1 })

/-- What `shiftReg` holds after the last tick of a slot: where `TBYTE = W` that tick shifts its sample in first (R195). -/
def Sys2Proof.lastShift (s : State) : BitVec 10 :=
  if s.cfg.tbyte = s.cfg.coding.wireLength then
    BitVec.ofNat 10 ((2 * s.shiftReg.toNat + s.lineIn.toNat) % 2 ^ (s.cfg.coding.wireLength - 1))
  else s.shiftReg

/-- R195, R196: key `10 0100`; the slot's ticks, and at its end a count of 1 to 40 opens the data slots, any other enters
ERROR with `bitTimer` still 1. -/
def Obligations.RxPayloadTick : Prop :=
  decodeTick 0b10_0100 = .rxPayload ∧
  ∀ s : State, s.cfg.Valid →
    SlotTicks .rxPayload s ∧
    (s.bitTimer = 1 →
      let v := (wireDecode s.cfg (lastShift s)).toNat
      (1 ≤ v → v ≤ maxFrameSize →
        exec .rxPayload s =
          .next { s with
            phaseReq := false
            shiftReg := lastShift s
            payloadLength := BitVec.ofNat 6 v
            byteIndex := 0
            bitTimer := s.cfg.tbyte
            st := .data }) ∧
      (v = 0 ∨ maxFrameSize < v →
        exec .rxPayload s =
          .next { s with phaseReq := false, shiftReg := lastShift s, activity := false, st := .error }))

/-- R195, R197: key `10 0101`; the slot's ticks, and at its end the decoded byte is stored at `byteIndex`, no other byte of
the buffer changing. -/
def Obligations.RxDataTick : Prop :=
  decodeTick 0b10_0101 = .rxData ∧
  ∀ s : State, s.cfg.Valid →
    SlotTicks .rxData s ∧
    (s.frameBuffer.wf = true → s.bitTimer = 1 → s.st = .data → s.byteIndex.toNat < maxFrameSize →
      ∃ m : Memory,
        exec .rxData s =
          .next { s with
            phaseReq := false
            shiftReg := lastShift s
            frameBuffer := m
            byteIndex := s.byteIndex + 1
            bitTimer := s.cfg.tbyte
            st := if s.byteIndex.toNat + 1 = s.payloadLength.toNat then .leadout else .data } ∧
        m.read s.byteIndex.toNat = wireDecode s.cfg (lastShift s) ∧
        ∀ a, a ≠ s.byteIndex.toNat → m.read a = s.frameBuffer.read a)

/-- R195, R198: key `10 0110`; the slot's ticks, and at its end RECV, whatever the byte, with `bitTimer` still 1. -/
def Obligations.RxLeadoutTick : Prop :=
  decodeTick 0b10_0110 = .rxLeadout ∧
  ∀ s : State, s.cfg.Valid →
    SlotTicks .rxLeadout s ∧
    (s.bitTimer = 1 →
      exec .rxLeadout s =
        .next { s with phaseReq := false, shiftReg := lastShift s, activity := false, st := .recv })

/-- R199, key `10 0111`: without RECV_OVERWRITE the frame is held; with it RECV hunts for a lock as READY does. R200, key `10 1000`: ERROR stays. Both
with the `phaseReq <- 0` of R190. -/
def Obligations.RxRecvAndErrorTicks : Prop :=
  decodeTick 0b10_0111 = .rxRecv ∧ decodeTick 0b10_1000 = .rxError ∧
  ∀ s : State,
    exec .rxError s = .next { s with phaseReq := false } ∧
    (s.cfg.recvOverwrite = false → exec .rxRecv s = .next { s with phaseReq := false }) ∧
    (s.cfg.recvOverwrite = true →
      (s.lineIn = true →
        exec .rxRecv s =
          .next { s with phaseReq := false, lockCount := min (s.lockCount + 1) (s.cfg.nSync / 2 + 1) }) ∧
      (s.lineIn = false → s.lockCount = s.cfg.nSync / 2 →
        exec .rxRecv s =
          .next { s with phaseReq := false, lockCount := 0, st := .sync, bitTimer := s.cfg.nSync / 2 - 1 }) ∧
      (s.lineIn = false → s.lockCount ≠ s.cfg.nSync / 2 →
        exec .rxRecv s = .next { s with phaseReq := false, lockCount := 0 }))

/-- R160: a TX tick never reads `lineIn`, and it writes neither the frame it sends nor `lineIn`. -/
def Obligations.TxTicksNeverReadTheLine : Prop :=
  ∀ (i : Instr) (s t : State) (b : Bool), i.isTxTick = true → exec i s = .next t →
    exec i { s with lineIn := b } = .next { t with lineIn := b } ∧
    t.lineIn = s.lineIn ∧ t.frameBuffer = s.frameBuffer ∧ t.payloadLength = s.payloadLength

/-- R202: the tick level ignores `phaseReq`: with another value of it, a tick leaves every other register as before. -/
def Obligations.TicksIgnorePhaseReq : Prop :=
  ∀ (i : Instr) (s t : State) (b : Bool),
    i.isTxTick = true ∨ i.isRxTick = true ∨ (∃ k, i = .idle k) → exec i s = .next t →
    ∃ c : Bool, exec i { s with phaseReq := b } = .next { t with phaseReq := c }

/-- R303: a step takes a Receive link out of ERROR only to START with FrameError reported, or to READY by a CONFIGURE that
answered OK; and it is a host's step. That this holds of a RECEIVE between its phases too is the model's reading of R200 and
R303 against R235 (log 27). -/
def Obligations.ErrorIsLeftOnlyByReceiveOrConfigure : Prop :=
  ∀ s t : State, s.dir = .receive → s.st = .error → step s = .next t → t.st ≠ .error →
    (∃ ts, s.schedule = .host :: ts) ∧
    (t.st = .start ∧ t.hostReturn.code = some .frameError ∨ t.st = .ready ∧ t.hostReturn.code = some .ok)

/-! ### Control-surface commands -/

/-- R231, R232, R233: CONFIGURE, code 0x0. A rate out of range is a ConfigError and changes no state; a legal rate whose
compare value fits configures the link; one whose compare value is negative or does not fit `CMP_WIDTH` bits is
refused. That a tick which already waits in `tickDue` is kept, as the frame says, is the model's choice (log 25). -/
def Obligations.ConfigureFollowsItsRule : Prop :=
  ∀ (s : State) (rate : Nat) (d : Dir), d ≠ .reserved →
    decode (.host (.cmd 0x0 { rate := rate, direction := d.code })) = .ok (.configure rate d) ∧
    (rate < 100 ∨ rate > 5000 →
      exec (.configure rate d) s =
        .next { s with hostReturn := { code := some .configError, info := .nothing } }) ∧
    (100 ≤ rate → rate ≤ 5000 →
      let ps := if rate ≥ 1000 then 64 else if rate ≥ 250 then 256 else 1024
      let q := s.cfg.fClk / ps / rate
      (1 ≤ q → q - 1 < 2 ^ s.cfg.cmpWidth →
        exec (.configure rate d) s =
          .next { s with
            dir := d
            baud := BitVec.ofNat 13 rate
            prescaler := if rate ≥ 1000 then .div64 else if rate ≥ 250 then .div256 else .div1024
            compare := q - 1
            st := .ready
            lockCount := 0
            tcnt := 0
            tickEnable := true
            hostReturn := { code := some .ok, info := .nothing } }) ∧
      (q = 0 ∨ 2 ^ s.cfg.cmpWidth ≤ q - 1 → exec (.configure rate d) s = .refused .compareOutOfRange))

/-- R234, R238: TRANSMIT, code 0x1. On a link of another direction, and while a frame is in flight, it writes nothing;
otherwise the frame is truncated to 40 bytes, loaded from index 0, and the machine starts; bytes beyond it stay. That `byteIndex` is left as it was is the model's reading
of R35, R50 and R234 against R170 (log 26), and that a tick which already waits in `tickDue` is kept is its choice (log 25). -/
def Obligations.TransmitFollowsItsRule : Prop :=
  ∀ (s : State) (length : Nat) (data : List Byte),
    decode (.host (.cmd 0x1 { length := length, data := data })) = .ok (.transmit length data) ∧
    (s.dir ≠ .transmit →
      exec (.transmit length data) s =
        .next { s with hostReturn := { code := some .configError, info := .nothing } }) ∧
    (s.dir = .transmit → s.st ≠ .ready →
      exec (.transmit length data) s =
        .next { s with hostReturn := { code := some .busy, info := .nothing } }) ∧
    (s.frameBuffer.wf = true → s.dir = .transmit → s.st = .ready → min length maxFrameSize ≤ data.length →
      let n := min length maxFrameSize
      ∃ m : Memory,
        exec (.transmit length data) s =
          .next { s with
            frameBuffer := m
            payloadLength := BitVec.ofNat 6 n
            st := .start
            tcnt := 0
            hostReturn := { code := some .ok, info := .nothing } } ∧
        (∀ i, i < n → m.read i = data.getD i 0) ∧
        ∀ i, n ≤ i → m.read i = s.frameBuffer.read i)

/-- R235: RECEIVE, code 0x2, to a host buffer of at least 40 bytes. Its error results come in their order, FrameError
restarting the machine. With RECV_OVERWRITE = false a held frame is handed out whole in one step and the machine
restarts. With RECV_OVERWRITE = true (R82, R345) the check that passes changes no register, and the critical phase, in
whatever state but ERROR the ticks between have left the link, hands out what the registers then hold and sets START. That
in ERROR it reports FrameError instead and copies nothing is the model's reading of R200, R303 and D21 against the
pseudocode of R235 (log 27). -/
def Obligations.ReceiveFollowsItsRule : Prop :=
  decode (.host (.cmd 0x2 {})) = .ok .receive ∧
  ∀ s : State,
    let handsOut :=
      ∃ out : List Byte,
        exec .receive s =
          .next { s with
            receivePending := false
            st := .start
            hostReturn := { code := some .ok, info := .frame s.payloadLength out } } ∧
        out.length = s.payloadLength.toNat ∧
        ∀ i, i < s.payloadLength.toNat → out.getD i 0 = s.frameBuffer.read i
    (s.receivePending = false → s.dir ≠ .receive →
      exec .receive s = .next { s with hostReturn := { code := some .configError, info := .nothing } }) ∧
    (s.receivePending = false → s.dir = .receive → s.st = .error →
      exec .receive s =
        .next { s with st := .start, hostReturn := { code := some .frameError, info := .nothing } }) ∧
    (s.receivePending = false → s.dir = .receive → s.st ≠ .error → s.st ≠ .recv →
      exec .receive s = .next { s with hostReturn := { code := some .noData, info := .nothing } }) ∧
    (s.receivePending = false → s.cfg.recvOverwrite = false → s.dir = .receive → s.st = .recv →
      s.payloadLength.toNat ≤ maxFrameSize → maxFrameSize ≤ s.outCapacity → handsOut) ∧
    (s.receivePending = false → s.cfg.recvOverwrite = true → s.dir = .receive → s.st = .recv →
      exec .receive s = .next { s with receivePending := true }) ∧
    (s.receivePending = true → s.st ≠ .error → s.payloadLength.toNat ≤ maxFrameSize → maxFrameSize ≤ s.outCapacity →
      handsOut) ∧
    (s.receivePending = true → s.st = .error →
      exec .receive s =
        .next { s with
          receivePending := false
          st := .start
          hostReturn := { code := some .frameError, info := .nothing } })

/-- R236: SET_ADDRESS, code 0x3, takes any 16-bit value. -/
def Obligations.SetAddressStoresTheAddress : Prop :=
  ∀ (s : State) (addr : BitVec 16),
    decode (.host (.cmd 0x3 { addr := addr })) = .ok (.setAddress addr) ∧
    exec (.setAddress addr) s =
      .next { s with ownAddress := addr, hostReturn := { code := some .ok, info := .nothing } }

/-- R237: the reserved command codes are refused by the decoder's row. -/
def Obligations.ReservedCommandCodesRefused : Prop :=
  (∀ (low : BitVec 3) (s : State), exec (.reservedCmd low) s = .refused .reservedCommand) ∧
  ∀ (code : BitVec 4) (ops : Operands), 8 ≤ code.toNat →
    ∃ low, decode (.host (.cmd code ops)) = .ok (.reservedCmd low)

/-- R124, R350: a host sequence shorter than its precondition (TRANSMIT, CRC16, SEND), an output buffer too small for a
frame (RECEIVE in one step or in its critical phase, whatever state but ERROR that meets, and the RECV that makes it), and a direction
that is none of the three are refused by name, with no effect. That the model refuses there is its choice (log 17, log 23). -/
def Obligations.PreconditionViolationsAreRefused : Prop :=
  ∀ s : State,
    (∀ (n : Nat) (data : List Byte), s.dir = .transmit → s.st = .ready → data.length < min n maxFrameSize →
      exec (.transmit n data) s = .refused .shortData) ∧
    (∀ (n : Nat) (data : List Byte), data.length < n → exec (.crc16 data n) s = .refused .shortData) ∧
    (∀ (dst : BitVec 16) (length : Nat) (data : List Byte), s.ownAddress ≠ 0 → data.length < min length maxDataSize →
      send dst length data s = .refused .shortData) ∧
    (s.receivePending = true ∧ s.st ≠ .error ∨ s.dir = .receive ∧ s.st = .recv ∧ s.cfg.recvOverwrite = false →
      s.payloadLength.toNat ≤ maxFrameSize → s.outCapacity < maxFrameSize →
      exec .receive s = .refused .outBufferTooSmall ∧
      (s.ownAddress ≠ 0 → recvStart s = .refused .outBufferTooSmall) ∧
      (s.spin = none → s.recvActive = true → hostTurn s = .refused .outBufferTooSmall)) ∧
    ∀ rate, exec (.configure rate .reserved) s = .refused .reservedDirection

/-! ### The CRC unit -/

/-- R121, R123, R125: CRC_INIT, CRC_BIT and CRC_READ; that they answer OK is the model's reading of R300 (log 3). -/
def Obligations.CrcInitBitAndRead : Prop :=
  ∀ s : State,
    exec .crcInit s =
      .next { s with crcAcc := 0xFFFF, hostReturn := { code := some .ok, info := .nothing } } ∧
    (∀ d : Bool,
      exec (.crcBit d) s =
        .next { s with
          crcAcc := (s.crcAcc <<< 1) ^^^ (if (s.crcAcc.getLsbD 15 ^^ d) = true then 0x1021 else 0)
          hostReturn := { code := some .ok, info := .nothing } }) ∧
    exec .crcRead s = .next { s with hostReturn := { code := some .ok, info := .crc s.crcAcc } }

/-- R122, R123: one CRC_BYTE leaves what eight CRC_BIT steps with the byte's bits, most significant first, leave. -/
def Obligations.CrcByteIsEightBitSteps : Prop :=
  ∀ (s : State) (b : Byte), ∃ t : State,
    execAll ((msbFirst b).map .crcBit) s = .next t ∧
    exec (.crcByte b) s =
      .next { s with crcAcc := t.crcAcc, hostReturn := { code := some .ok, info := .nothing } }

/-- R124, R126: the three forms give the same value, from any state; CRC16 reads the first `length` bytes it is given and
writes no register. That CRC16, which has no command code, answers into the host port with no result code is the model's
reading (log 10). -/
def Obligations.CrcFormsAgree : Prop :=
  ∀ (s : State) (d rest : List Byte), ∃ (c : BitVec 16) (t u : State),
    execAll ([.crcInit] ++ d.map .crcByte ++ [.crcRead]) s = .next t ∧ t.hostReturn.info = .crc c ∧
    execAll ([.crcInit] ++ (d.flatMap msbFirst).map .crcBit ++ [.crcRead]) s = .next u ∧
    u.hostReturn.info = .crc c ∧
    exec (.crc16 (d ++ rest) d.length) s = .next { s with hostReturn := { code := none, info := .crc c } }

/-- R127: CRC16 of nothing is 0xFFFF, and flipping any one bit of the data changes the result. -/
def Obligations.SingleBitFlipChangesTheCrc : Prop :=
  crc16 [] = 0xFFFF ∧
  ∀ (d : List Byte) (i k : Nat), i < d.length → k < 8 →
    crc16 (d.set i (d.getD i 0 ^^^ BitVec.ofNat 8 (2 ^ k))) ≠ crc16 d

/-! ### The line code -/

/-- R140 to R143: the combinational functions answer their values and write no register. That each, having no command code
(R103), is evaluated alone into the host port with no result code is the model's reading (log 10). -/
def Obligations.LineCodeFunctionsAnswer : Prop :=
  ∀ s : State,
    (∀ n : BitVec 4,
      exec (.lcEnc n) s = .next { s with hostReturn := { code := none, info := .symbol s.cfg.lc[n.toNat] } }) ∧
    (∀ c : BitVec 5, ∃ n : BitVec 4,
      exec (.lcDec c) s = .next { s with hostReturn := { code := none, info := .nibble n } } ∧
      (c ∉ codeSet → n = 0) ∧ (s.cfg.lc.Bijective → c ∈ codeSet → s.cfg.lc[n.toNat] = c)) ∧
    (∀ b : Byte, ∃ w : BitVec 11,
      exec (.wireEnc b) s = .next { s with hostReturn := { code := none, info := .wireWord w } } ∧
      (s.cfg.coding = .raw → w.toNat = 0x100 + b.toNat) ∧
      (s.cfg.coding = .balanced →
        ∀ hi lo : Fin 16, b.toNat = 16 * hi.val + lo.val →
          w.toNat = 0x400 + 32 * s.cfg.lc[hi].toNat + s.cfg.lc[lo].toNat)) ∧
    (∀ r : BitVec 10, ∃ b : Byte,
      exec (.wireDec r) s = .next { s with hostReturn := { code := none, info := .byte b } } ∧
      (s.cfg.coding = .raw → b.toNat = r.toNat % 256) ∧
      (s.cfg.coding = .balanced →
        b.toNat = 16 * (lcDecode s.cfg.lc (BitVec.ofNat 5 (r.toNat / 32))).toNat +
          (lcDecode s.cfg.lc (BitVec.ofNat 5 (r.toNat % 32))).toNat))

/-- R144: the round trips, for every line code onto CODESET and both modes. -/
def Obligations.LineCodeRoundTrip : Prop :=
  ∀ cfg : Config, cfg.Valid →
    (∀ b : Byte, wireDecode cfg (dataBits cfg.coding.wireLength (wireEncode cfg b)) = b) ∧
    (∀ n : BitVec 4, lcDecode cfg.lc (lcEncode cfg.lc n) = n) ∧
    ∀ c : BitVec 5, c ∉ codeSet → lcDecode cfg.lc c = 0

/-- R93, R141: each symbol row answers the nibble whose code its symbol is, its own place under the default table; a
symbol outside CODESET answers 0. -/
def Obligations.SymbolRowsAnswerTheirNibble : Prop :=
  ∀ s : State, s.cfg.lc.Bijective →
    (∀ row ∈ [(Instr.lc5_0, 0, 0x04), (.lc5_1, 1, 0x05), (.lc5_2, 2, 0x06), (.lc5_3, 3, 0x09), (.lc5_4, 4, 0x0A),
        (.lc5_5, 5, 0x0B), (.lc5_6, 6, 0x0C), (.lc5_7, 7, 0x0D), (.lc5_8, 8, 0x12), (.lc5_9, 9, 0x13),
        (.lc5_A, 10, 0x14), (.lc5_B, 11, 0x15), (.lc5_C, 12, 0x16), (.lc5_D, 13, 0x19), (.lc5_E, 14, 0x1A),
        (.lc5_F, 15, 0x1B)],
      ∃ n : BitVec 4,
        exec row.1 s = .next { s with hostReturn := { code := none, info := .nibble n } } ∧
        s.cfg.lc[n.toNat].toNat = row.2.2 ∧ (s.cfg.lc = ascendingCode → n.toNat = row.2.1)) ∧
    ∀ c : BitVec 5, c ∉ codeSet →
      exec (.lc5Invalid c) s = .next { s with hostReturn := { code := none, info := .nibble 0 } }

/-- R91, R94, R95, R96: each wire-word row answers its word, the levels of its slot (bit `W-1-k` at slot tick `k`, then
0 to the end of the slot) and the byte it decodes to; it writes no register. -/
def Obligations.WireWordRowsAnswerTheirSlot : Prop :=
  ∀ s : State,
    let isSlot := fun (len word : Nat) (levels : List Bool) =>
      levels.length = s.cfg.tbyte ∧
      ∀ k, k < s.cfg.tbyte → levels.getD k false = (decide (k < len) && word.testBit (len - 1 - k))
    (∀ b : Byte, ∃ (w : BitVec 11) (levels : List Bool),
      exec (.wireRaw b) s = .next { s with hostReturn := { code := none, info := .slot w levels b } } ∧
      w.toNat = 0x100 + b.toNat ∧ isSlot 9 w.toNat levels) ∧
    (∀ h l : BitVec 5, ∃ (w : BitVec 11) (levels : List Bool) (b : Byte),
      exec (.wireBalanced h l) s = .next { s with hostReturn := { code := none, info := .slot w levels b } } ∧
      w.toNat = 0x400 + 32 * h.toNat + l.toNat ∧ isSlot 11 w.toNat levels ∧
      b.toNat = 16 * (lcDecode s.cfg.lc h).toNat + (lcDecode s.cfg.lc l).toNat) ∧
    ∃ (w : BitVec 11) (levels : List Bool),
      exec .wireLeadout s = .next { s with hostReturn := { code := none, info := .slot w levels 0 } } ∧
      w.toNat = 2 ^ (s.cfg.coding.wireLength - 1) ∧ isSlot s.cfg.coding.wireLength w.toNat levels

/-- R92, R145: no symbol of CODESET holds three equal bits in a row, and inside one BALANCED wire word no five bits in a
row are equal, for every line code onto CODESET. -/
def Obligations.BalancedWordsHaveNoRunOfFive : Prop :=
  (∀ c ∈ codeSet, ∀ i, i < 3 → ¬ (c.getLsbD i = c.getLsbD (i + 1) ∧ c.getLsbD (i + 1) = c.getLsbD (i + 2))) ∧
  ∀ (lc : LineCode) (b : Byte), lc.Bijective →
    let w := wireEncodeAs .balanced lc b
    ∀ i, i < 7 →
      ¬ (w.getLsbD i = w.getLsbD (i + 1) ∧ w.getLsbD (i + 1) = w.getLsbD (i + 2) ∧
        w.getLsbD (i + 2) = w.getLsbD (i + 3) ∧ w.getLsbD (i + 3) = w.getLsbD (i + 4))

/-! ### The clock level -/

/-- R312, R313: a clock turn is `clockEdge`. With no spin running, an edge counts, clears on compare and fires one tick, or, while `tickEnable` is 0,
makes the tick wait until it is 1; a stopped prescaler does nothing. The waiting tick's edge, and that a tick that waits and
a match at the same edge are one tick, are the model's choice (log 14, log 25). -/
def Obligations.ClockEdgeCountsAndFires : Prop :=
  (∀ (s : State) (b : Bool) (ts : List Turn), s.schedule = .clock b :: ts →
    step s = clockEdge b { s with schedule := ts }) ∧
  ∀ (s : State) (b : Bool), s.spin = none →
    (s.prescaler = .stopped → clockEdge b s = .next { s with lineIn := b }) ∧
    (s.prescaler ≠ .stopped → s.tickDue = false → s.tcnt ≠ s.compare → s.tcnt + 1 < 2 ^ s.cfg.cmpWidth →
      clockEdge b s = .next { s with lineIn := b, tcnt := s.tcnt + 1 }) ∧
    (s.prescaler ≠ .stopped → s.tcnt = s.compare → s.tickEnable = false →
      clockEdge b s = .next { s with lineIn := b, tcnt := 0, tickDue := true }) ∧
    (s.prescaler ≠ .stopped → s.tcnt = s.compare → s.tickEnable = true →
      let u := { s with lineIn := b, tcnt := 0, tickDue := false }
      (s.dir ≠ .receive → clockEdge b s = runTick b u) ∧
      ∀ t, runTick b u = .next t → t.phaseReq = false → clockEdge b s = .next t) ∧
    (s.prescaler ≠ .stopped → s.tickDue = true → s.tickEnable = true → s.dir ≠ .receive →
      s.tcnt ≠ s.compare → s.tcnt + 1 < 2 ^ s.cfg.cmpWidth →
      clockEdge b s = runTick b { s with lineIn := b, tcnt := s.tcnt + 1, tickDue := false })

/-- R314, R315: from a counter of 0, `compare` edges fire no tick and change nothing but the counter, and the next edge
fires one: the period is `compare + 1` prescaled clocks, for a link of any direction. -/
def Obligations.TickPeriodIsComparePlusOne : Prop :=
  ∀ (s : State) (levels : List Bool) (b : Bool), s.spin = none → s.tickDue = false → s.prescaler ≠ .stopped →
    s.tickEnable = true → s.compare < 2 ^ s.cfg.cmpWidth → s.tcnt = 0 → levels.length = s.compare →
    clockEdges levels s = .next { s with tcnt := s.compare, lineIn := levels.getLastD s.lineIn } ∧
    clockEdges (levels ++ [b]) s = fireTick { s with lineIn := b } ∧
    (s.dir ≠ .receive → clockEdges (levels ++ [b]) s = runTick b { s with lineIn := b })

/-- R316: an RX tick that the generator fires and that asks for the phase correction goes on into its spin while the line is
high and the bound is not 0; otherwise the correction is made at once. While any spin runs, however long, no tick follows
and no host step interrupts it (R308, R311): such a turn is used up and changes nothing. Where the spin begins is the model's
reading (log 12), and so is that those turns are used up (log 5, log 15). -/
def Obligations.PhaseCorrectionBeginsAtTheFramingTick : Prop :=
  (∀ (s : State) (n : Nat), s.spin = some n →
    (∀ level, runTick level s = .next s) ∧ hostTurn s = .next s ∧
    ∀ (u : Turn) (ts : List Turn), u = .host ∨ (∃ level, u = .tick level) → s.schedule = u :: ts →
      step s = .next { s with schedule := ts }) ∧
  ∀ (s t : State) (b : Bool), s.spin = none → s.prescaler ≠ .stopped → s.tcnt = s.compare → s.tickEnable = true →
    s.dir = .receive → runTick b { s with lineIn := b, tcnt := 0, tickDue := false } = .next t → t.phaseReq = true →
    (b = true → spinBoundReached t.cfg.spinMax t.compare 0 = false → clockEdge b s = .next { t with spin := some 0 }) ∧
    (b = false ∨ spinBoundReached t.cfg.spinMax t.compare 0 = true → clockEdge b s = .next (endSpin t))

/-- R316: a spin ends at the first low level or at `SPIN_MAX`; the next tick then fires exactly `PHASE_DELAY` prescaled
clocks later. While the line is high and the bound not reached, the spin goes on and nothing else changes. -/
def Obligations.PhaseCorrectionPlacesTheNextTick : Prop :=
  ∀ (s : State) (n : Nat) (b : Bool), s.spin = some n → s.compare < 2 ^ s.cfg.cmpWidth →
    (b = true → spinBoundReached s.cfg.spinMax s.compare (n + 1) = false →
      clockEdge b s = .next { s with lineIn := b, spin := some (n + 1) }) ∧
    (b = false ∨ spinBoundReached s.cfg.spinMax s.compare (n + 1) = true →
      s.tickDue = false → s.prescaler ≠ .stopped → s.tickEnable = true →
      let delay := phaseDelayOf s.cfg.phaseDelay s.compare
      1 ≤ delay → delay ≤ s.compare + 1 →
      let u := { s with lineIn := b, spin := none, tcnt := s.compare + 1 - delay }
      clockEdge b s = .next u ∧
      ∀ (levels : List Bool) (c : Bool), levels.length = delay - 1 →
        clockEdges levels u = .next { u with tcnt := s.compare, lineIn := levels.getLastD b } ∧
        clockEdges (levels ++ [c]) u = fireTick { u with tcnt := 0, lineIn := c })

/-- R317: with `SPIN_MAX = infinity`, as long as the line stays high a spin goes on, no tick fires and no register of the
link changes but the count of spun clocks. -/
def Obligations.UnboundedSpinHangsWhileTheLineIsHigh : Prop :=
  ∀ (s : State) (n k : Nat), s.cfg.spinMax = .infinite → s.spin = some n →
    clockEdges (List.replicate (k + 1) true) s = .next { s with lineIn := true, spin := some (n + k + 1) }

/-! ### Whole frames -/

/-- A Transmit link in START, ticking, whose buffer holds a frame. -/
def Sys2Proof.StartsAFrame (s : State) : Prop :=
  s.cfg.Valid ∧ s.dir = .transmit ∧ s.st = .start ∧ s.tickEnable = true ∧ s.spin = none ∧
  s.payloadLength.toNat ≤ maxFrameSize

/-- R170: a frame of `n` bytes takes `1 + N_STROBE + N_SYNC + (n + 2) * TBYTE` ticks to READY and not one less; `bitTimer`
is 0 then, and the frame being sent is unchanged. -/
def Obligations.TxFrameLastsItsTicks : Prop :=
  ∀ (s : State) (level : Bool), StartsAFrame s →
    let total := frameTicks s.cfg s.payloadLength.toNat
    (∃ t, ticks level total s = .next t ∧ t.st = .ready ∧ t.bitTimer = 0 ∧ t.frameBuffer = s.frameBuffer ∧
      t.payloadLength = s.payloadLength) ∧
    ∀ k, k < total → ∃ t, ticks level k s = .next t ∧ t.st ≠ .ready

/-- The level R99's table gives tick `j` of a frame: START, the strobe, the sync halves, then the slots of the count, the
data bytes and the leadout. -/
def Sys2Proof.waveform (s : State) (j : Nat) : Bool :=
  let c := s.cfg
  let n := s.payloadLength.toNat
  if j < 1 then false
  else if j < 1 + c.nStrobe then decide ((j - 1) % 2 = 0)
  else if j < 1 + c.nStrobe + c.nSync then decide (j - 1 - c.nStrobe < c.nSync / 2)
  else
    let r := j - (1 + c.nStrobe + c.nSync)
    let slot := r / c.tbyte
    let word :=
      if slot = 0 then wireEncode c (BitVec.ofNat 8 n)
      else if slot ≤ n then wireEncode c (s.frameBuffer.read (slot - 1))
      else leadoutWord c
    slotBit c word (r % c.tbyte)

/-- R99: tick by tick, the line carries the frame's waveform. -/
def Obligations.TxFrameDrivesItsWaveform : Prop :=
  ∀ (s : State) (level : Bool) (j : Nat), StartsAFrame s → j < frameTicks s.cfg s.payloadLength.toNat →
    ∃ t, ticks level (j + 1) s = .next t ∧ t.lineOut = waveform s j

/-- The parameters on which the two ends of a channel must agree (R105, R204). -/
def Sys2Proof.SameLine (a b : Config) : Prop :=
  a.coding = b.coding ∧ a.tbyte = b.tbyte ∧ a.nStrobe = b.nStrobe ∧ a.nSync = b.nSync ∧ a.lc = b.lc

/-- R204: under the aligned channel premise (R318), a receiver that agrees with the transmitter on CODING, TBYTE, N_STROBE,
N_SYNC and LC and runs START, or READY without a pending lock, at the transmitter's START tick: it locks on at the first
low sync tick, runs PAYLOAD at exactly the transmitter's PAYLOAD ticks, and for 1 to 40 bytes enters RECV at the last
LEADOUT tick holding the frame; for 0 bytes it enters ERROR at the last PAYLOAD tick. -/
def Obligations.LockstepRoundTrip : Prop :=
  ∀ tx rx : State, StartsAFrame tx → SameLine rx.cfg tx.cfg → rx.dir = .receive → rx.tickEnable = true → rx.spin = none →
    rx.frameBuffer.wf = true →
    rx.st = .start ∨ rx.st = .ready ∧ rx.lockCount ≠ rx.cfg.nSync / 2 →
    let c := tx.cfg
    let n := tx.payloadLength.toNat
    let lock := 1 + c.nStrobe + c.nSync / 2 + 1
    let count := 1 + c.nStrobe + c.nSync + c.tbyte
    let total := frameTicks c n
    (∃ t r, alignedTicks (lock - 1) ⟨tx, [rx]⟩ = .next ⟨t, [r]⟩ ∧ r.st = .ready) ∧
    (∃ t r, alignedTicks lock ⟨tx, [rx]⟩ = .next ⟨t, [r]⟩ ∧ r.st = .sync) ∧
    (∀ k, k ≤ total → ∃ t r, alignedTicks k ⟨tx, [rx]⟩ = .next ⟨t, [r]⟩ ∧ (t.st = .payload ↔ r.st = .payload)) ∧
    (1 ≤ n →
      (∃ t r, alignedTicks (total - 1) ⟨tx, [rx]⟩ = .next ⟨t, [r]⟩ ∧ t.st = .leadout ∧ r.st = .leadout) ∧
      ∃ t r, alignedTicks total ⟨tx, [rx]⟩ = .next ⟨t, [r]⟩ ∧ t.st = .ready ∧ r.st = .recv ∧
        r.payloadLength = tx.payloadLength ∧ ∀ i, i < n → r.frameBuffer.read i = tx.frameBuffer.read i) ∧
    (n = 0 →
      (∃ t r, alignedTicks (count - 1) ⟨tx, [rx]⟩ = .next ⟨t, [r]⟩ ∧ t.st = .payload ∧ r.st = .payload) ∧
      ∃ t r, alignedTicks count ⟨tx, [rx]⟩ = .next ⟨t, [r]⟩ ∧ t.st = .leadout ∧ r.st = .error)

/-! ### The transport layer -/

/-- R263: the two bytes of a 16-bit field, in each order, and reading them back. -/
def Obligations.TransportFieldsHaveTheHostOrder : Prop :=
  (∀ v : BitVec 16,
    put16 .le v = [BitVec.ofNat 8 (v.toNat % 256), BitVec.ofNat 8 (v.toNat / 256)] ∧
    put16 .be v = [BitVec.ofNat 8 (v.toNat / 256), BitVec.ofNat 8 (v.toNat % 256)]) ∧
  ∀ (f : List Byte) (i : Nat),
    (get16 .le f i).toNat = (f.getD i 0).toNat + 256 * (f.getD (i + 1) 0).toNat ∧
    (get16 .be f i).toNat = 256 * (f.getD i 0).toNat + (f.getD (i + 1) 0).toNat

/-- R261: SEND without an address is a ConfigError; otherwise it transmits destination, source, at most 32 bytes of
payload and the CRC of what precedes it, in the transport byte order, and answers as TRANSMIT does. That SEND is one step and
leaves `crcAcc` alone is the model's reading (log 16). -/
def Obligations.SendTransmitsTheFramedPayload : Prop :=
  ∀ (s : State) (dst : BitVec 16) (length : Nat) (data : List Byte),
    (s.ownAddress = 0 →
      send dst length data s = .next { s with hostReturn := { code := some .configError, info := .nothing } }) ∧
    (s.ownAddress ≠ 0 → min length maxDataSize ≤ data.length →
      let m := min length maxDataSize
      ∃ f : List Byte,
        send dst length data s = exec (.transmit (6 + m) f) s ∧ f.length = 6 + m ∧
        get16 s.cfg.hostOrder f 0 = dst ∧ get16 s.cfg.hostOrder f 2 = s.ownAddress ∧
        (f.drop 4).take m = data.take m ∧ get16 s.cfg.hostOrder f (4 + m) = crc16 (f.take (4 + m)))

/-- R262: RECV without an address is a ConfigError; otherwise it makes a RECEIVE, judged when it has returned, and returns
that call's error at once; and while it goes on, the host's turns are its RECEIVEs, each judged when it has returned. One
step of its RECEIVE per host turn is the model's reading (log 16). -/
def Obligations.RecvCallsReceive : Prop :=
  ∀ s : State,
    (s.ownAddress = 0 →
      recvStart s = .next { s with hostReturn := { code := some .configError, info := .nothing } }) ∧
    (s.ownAddress ≠ 0 → s.receivePending = false →
      (s.dir ≠ .receive →
        recvStart s =
          .next { s with recvActive := false, hostReturn := { code := some .configError, info := .nothing } }) ∧
      (s.dir = .receive → s.st = .error →
        recvStart s =
          .next { s with
            st := .start
            recvActive := false
            hostReturn := { code := some .frameError, info := .nothing } }) ∧
      (s.dir = .receive → s.st ≠ .error → s.st ≠ .recv →
        recvStart s =
          .next { s with recvActive := false, hostReturn := { code := some .noData, info := .nothing } })) ∧
    (s.ownAddress ≠ 0 → ∀ t, exec .receive { s with recvActive := true } = .next t →
      recvStart s = .next (if t.receivePending then t else recvJudge s.hostReturn t)) ∧
    (s.spin = none → s.recvActive = true → ∀ t, exec .receive s = .next t →
      (t.receivePending = true → hostTurn s = .next t) ∧
      (t.receivePending = false → hostTurn s = .next (recvJudge s.hostReturn t)))

/-- R262, R264: what RECV makes of a frame its RECEIVE returned: a short frame and a frame of a wrong CRC are CrcErrors; a
frame for another address is skipped without a return, and the loop goes on; any other frame is handed over. -/
def Obligations.RecvJudgesTheReceivedFrame : Prop :=
  ∀ (before : HostReturn) (s : State) (n : BitVec 6) (f : List Byte), f.length = n.toNat →
    s.hostReturn = { code := some .ok, info := .frame n f } →
    let o := s.cfg.hostOrder
    let accepted := get16 o f 0 = s.ownAddress ∨ get16 o f 0 = 0xFFFF
    let crcOk := crc16 (f.take (n.toNat - 2)) = get16 o f (n.toNat - 2)
    (n.toNat < 6 →
      recvJudge before s =
        { s with hostReturn := { code := some .crcError, info := .nothing }, recvActive := false }) ∧
    (6 ≤ n.toNat → ¬ accepted → recvJudge before s = { s with hostReturn := before }) ∧
    (6 ≤ n.toNat → accepted → ¬ crcOk →
      recvJudge before s =
        { s with hostReturn := { code := some .crcError, info := .nothing }, recvActive := false }) ∧
    (6 ≤ n.toNat → accepted → crcOk →
      ∃ data : List Byte,
        recvJudge before s =
          { s with
            hostReturn := { code := some .ok, info := .message (get16 o f 2) data (n.toNat - 6) }
            recvActive := false } ∧
        data.length = n.toNat - 6 ∧ ∀ i, i < n.toNat - 6 → data.getD i 0 = f.getD (4 + i) 0)

/-- R266 without the channel: a frame that SEND builds for a node's address or for all nodes, received whole, is handed
over with its payload and its sender's address. -/
def Obligations.TransportFrameRoundTrip : Prop :=
  ∀ (before : HostReturn) (s : State) (dst src : BitVec 16) (payload : List Byte), payload.length ≤ maxDataSize →
    dst = s.ownAddress ∨ dst = 0xFFFF →
    s.hostReturn =
      { code := some .ok
        info := .frame (BitVec.ofNat 6 (6 + payload.length)) (transportFrame s.cfg.hostOrder dst src payload) } →
    recvJudge before s =
      { s with
        hostReturn := { code := some .ok, info := .message src payload payload.length }
        recvActive := false }

/-- R265: one byte of a framed payload changed in the source address, the payload or the CRC. The receiver whose filter
the frame passes reports CrcError. -/
def Obligations.CorruptedByteIsACrcError : Prop :=
  ∀ (before : HostReturn) (s : State) (dst src : BitVec 16) (payload : List Byte) (j : Nat) (x : Byte),
    payload.length ≤ maxDataSize → dst = s.ownAddress ∨ dst = 0xFFFF → 2 ≤ j → j < 6 + payload.length →
    let f := transportFrame s.cfg.hostOrder dst src payload
    x ≠ f.getD j 0 →
    s.hostReturn =
      { code := some .ok, info := .frame (BitVec.ofNat 6 (6 + payload.length)) (f.set j x) } →
    recvJudge before s =
      { s with hostReturn := { code := some .crcError, info := .nothing }, recvActive := false }

/-! ### No step from the invariant faults -/

/-- R51, R72, R168, R201: no step of any agent faults, from any state that meets the invariant; with
`EveryStepKeepsTheInvariant` this is what keeps every run from a fault. -/
def Obligations.NoStepFromTheInvariantFaults : Prop :=
  ∀ (s : State) (f : Fault), Inv s → step s ≠ .fault f
end

