-- ==== Sys2Proof/Laws/Memory.lean ====
section
/-! SUPPORT. The laws of the frame buffer: reading back, and the canonical form every operation keeps. -/

namespace Sys2Proof.Machine

open Sys2Proof

/-- The frame buffer's size as a numeral, for linear arithmetic. -/
theorem maxFrameSize_eq : maxFrameSize = 40 := rfl

@[simp] theorem Memory.read_nil (i : Nat) : Memory.read [] i = 0 := rfl

theorem Memory.read_cons (a : Nat) (v : Byte) (m : Memory) (i : Nat) :
    Memory.read ((a, v) :: m) i = if a = i then v else Memory.read m i := rfl

theorem Memory.wfFrom_cons {lo a : Nat} {v : Byte} {m : Memory} :
    Memory.wfFrom lo ((a, v) :: m) = true ↔
      lo ≤ a ∧ a < maxFrameSize ∧ v ≠ 0 ∧ Memory.wfFrom (a + 1) m = true := by
  simp only [Memory.wfFrom, Bool.and_eq_true, decide_eq_true_eq, and_assoc]
  rfl

/-- A canonical form from a later index is one from an earlier. -/
theorem Memory.wfFrom_mono {lo lo' : Nat} {m : Memory} (h : Memory.wfFrom lo m = true) (hl : lo' ≤ lo) :
    Memory.wfFrom lo' m = true := by
  cases m with
  | nil => rfl
  | cons c m =>
    obtain ⟨a, v⟩ := c
    rw [Memory.wfFrom_cons] at h ⊢
    exact ⟨by omega, h.2⟩

/-- Below its first index a canonical memory reads the unlisted value. -/
theorem Memory.read_below {lo i : Nat} {m : Memory} (h : Memory.wfFrom lo m = true) (hi : i < lo) :
    m.read i = 0 := by
  induction m generalizing lo with
  | nil => rfl
  | cons c m ih =>
    obtain ⟨a, v⟩ := c
    rw [Memory.wfFrom_cons] at h
    rw [Memory.read_cons, if_neg (by omega)]
    exact ih h.2.2.2 (by omega)

theorem Memory.read_write_from {lo i j : Nat} {v : Byte} {m : Memory} (h : Memory.wfFrom lo m = true) :
    (m.write i v).read j = if j = i then v else m.read j := by
  induction m generalizing lo with
  | nil =>
    by_cases hv : v = Memory.unlisted
    · subst hv; simp [Memory.write, Memory.unlisted]
    · by_cases hj : j = i
      · simp [Memory.write, hv, Memory.read_cons, hj]
      · simp [Memory.write, hv, Memory.read_cons, hj, Ne.symm hj]
  | cons c m ih =>
    obtain ⟨a, w⟩ := c
    rw [Memory.wfFrom_cons] at h
    have tail : Memory.read m a = 0 := Memory.read_below h.2.2.2 (by omega)
    have low : i < a → Memory.read m i = 0 := fun hi => Memory.read_below h.2.2.2 (by omega)
    simp only [Memory.write]
    split
    · rw [Memory.read_cons, Memory.read_cons, ih h.2.2.2]
      split <;> split <;> first | rfl | omega
    · by_cases hv : v = Memory.unlisted
      · subst hv
        simp only [if_true, Memory.unlisted] at *
        split
        · rename_i hai
          subst hai
          rw [Memory.read_cons]
          split
          · rename_i hj; subst hj; simpa using tail
          · simp [Ne.symm ‹_›]
        · rw [Memory.read_cons]
          split
          · rename_i hne hj; subst hj; rw [if_neg (by omega)]
          · by_cases hji : j = i
            · subst hji; rw [if_pos rfl]; exact low (by omega)
            · rw [if_neg hji]
      · simp only [if_neg hv, Memory.read_cons]
        by_cases hji : j = i
        · simp [hji]
        · rw [if_neg (Ne.symm hji), if_neg hji]
          split
          · rename_i hai; subst hai; rw [if_neg (Ne.symm hji)]
          · rw [Memory.read_cons]

/-- Reading after a write: the written byte at its index, every other index as before. -/
theorem Memory.read_write {i j : Nat} {v : Byte} {m : Memory} (h : m.wf = true) :
    (m.write i v).read j = if j = i then v else m.read j := Memory.read_write_from h

theorem Memory.wfFrom_write {lo i : Nat} {v : Byte} {m : Memory} (h : Memory.wfFrom lo m = true) (hlo : lo ≤ i)
    (hi : i < maxFrameSize) : Memory.wfFrom lo (m.write i v) = true := by
  induction m generalizing lo with
  | nil =>
    by_cases hv : v = Memory.unlisted
    · simp [Memory.write, hv, Memory.wfFrom]
    · simp only [Memory.write, if_neg hv]
      exact Memory.wfFrom_cons.2 ⟨hlo, hi, hv, rfl⟩
  | cons c m ih =>
    obtain ⟨a, w⟩ := c
    rw [Memory.wfFrom_cons] at h
    obtain ⟨h1, h2, h3, h4⟩ := h
    simp only [Memory.write]
    split
    · exact Memory.wfFrom_cons.2 ⟨h1, h2, h3, ih h4 (by omega)⟩
    · have rest : Memory.wfFrom (i + 1) (if a = i then m else (a, w) :: m) = true := by
        split
        · rename_i hai; subst hai; exact h4
        · exact Memory.wfFrom_cons.2 ⟨by omega, h2, h3, h4⟩
      split
      · exact Memory.wfFrom_mono rest (by omega)
      · exact Memory.wfFrom_cons.2 ⟨hlo, hi, ‹_›, rest⟩

/-- A write inside the buffer keeps the canonical form. -/
theorem Memory.wf_write {i : Nat} {v : Byte} {m : Memory} (h : m.wf = true) (hi : i < maxFrameSize) :
    (m.write i v).wf = true := Memory.wfFrom_write h (Nat.zero_le _) hi

/-- Loading a sequence inside the buffer keeps the canonical form. -/
theorem Memory.wf_load {i : Nat} {bs : List Byte} {m : Memory} (h : m.wf = true)
    (hi : i + bs.length ≤ maxFrameSize) : (m.load i bs).wf = true := by
  induction bs generalizing i m with
  | nil => exact h
  | cons b bs ih =>
    rw [List.length_cons] at hi
    exact ih (Memory.wf_write h (by omega)) (by omega)

/-- Reading after a load: the loaded bytes at their indices, every other index as before. -/
theorem Memory.read_load {i j : Nat} {bs : List Byte} {m : Memory} (h : m.wf = true)
    (hi : i + bs.length ≤ maxFrameSize) :
    (m.load i bs).read j = if i ≤ j ∧ j < i + bs.length then bs.getD (j - i) 0 else m.read j := by
  induction bs generalizing i m with
  | nil =>
    rw [if_neg (by simp)]
    rfl
  | cons b bs ih =>
    rw [List.length_cons] at hi ⊢
    rw [Memory.load, ih (Memory.wf_write h (by omega)) (by omega), Memory.read_write h]
    by_cases hj : j = i
    · subst hj
      rw [if_neg (by omega), if_pos rfl, if_pos (by omega)]
      simp
    · rw [if_neg hj]
      by_cases hr : i + 1 ≤ j ∧ j < i + 1 + bs.length
      · rw [if_pos hr, if_pos (by omega)]
        obtain ⟨k, rfl⟩ : ∃ k, j = i + 1 + k := ⟨j - (i + 1), by omega⟩
        rw [show i + 1 + k - (i + 1) = k by omega, show i + 1 + k - i = k + 1 by omega]
        simp
      · rw [if_neg hr, if_neg (by omega)]

@[simp] theorem Memory.drain_length (m : Memory) (n : Nat) : (m.drain n).length = n := by simp [Memory.drain]

/-- The drained bytes are the buffer's. -/
theorem Memory.drain_getD (m : Memory) {n i : Nat} (h : i < n) : (m.drain n).getD i 0 = m.read i := by
  simp [Memory.drain, h]

/-- Two canonical memories that read the same are equal data. -/
theorem Memory.ext_from {lo : Nat} {m m' : Memory} (h : Memory.wfFrom lo m = true)
    (h' : Memory.wfFrom lo m' = true) (hr : ∀ i, m.read i = m'.read i) : m = m' := by
  induction m generalizing lo m' with
  | nil =>
    cases m' with
    | nil => rfl
    | cons c m' =>
      obtain ⟨a, v⟩ := c
      have := hr a
      rw [Memory.wfFrom_cons] at h'
      simp [Memory.read_cons] at this
      exact absurd this.symm h'.2.2.1
  | cons c m ih =>
    obtain ⟨a, v⟩ := c
    have h1 := Memory.wfFrom_cons.1 h
    cases m' with
    | nil =>
      have := hr a
      simp [Memory.read_cons] at this
      exact absurd this h1.2.2.1
    | cons c' m' =>
      obtain ⟨b, w⟩ := c'
      have h2 := Memory.wfFrom_cons.1 h'
      have ra := hr a
      have rb := hr b
      rw [Memory.read_cons, Memory.read_cons] at ra rb
      have hab : a = b := by
        rcases Nat.lt_trichotomy a b with hlt | heq | hgt
        · rw [if_pos rfl, if_neg (by omega), Memory.read_below h2.2.2.2 (by omega)] at ra
          exact absurd ra h1.2.2.1
        · exact heq
        · rw [if_neg (by omega), if_pos rfl, Memory.read_below h1.2.2.2 (by omega)] at rb
          exact absurd rb.symm h2.2.2.1
      subst hab
      simp only [if_true] at ra
      subst ra
      have : m = m' := by
        refine ih h1.2.2.2 h2.2.2.2 fun i => ?_
        have := hr i
        rw [Memory.read_cons, Memory.read_cons] at this
        by_cases hi : a = i
        · subst hi
          rw [Memory.read_below h1.2.2.2 (by omega), Memory.read_below h2.2.2.2 (by omega)]
        · simpa [hi] using this
      rw [this]

theorem Memory.ext_of_wf {m m' : Memory} (h : m.wf = true) (h' : m'.wf = true)
    (hr : ∀ i, m.read i = m'.read i) : m = m' := Memory.ext_from h h' hr

/-- The buffer after reset is canonical, whatever the parameters. -/
theorem resetWith_buffer_wf (cfg : Config) : (State.resetWith cfg).frameBuffer.wf = true := rfl

theorem reset_buffer_wf : State.reset.frameBuffer.wf = true := rfl

end Sys2Proof.Machine
end

