-- ==== Sys2Proof/Laws/State.lean ====
section
/-! SUPPORT. What each named update of State leaves in each field. -/

namespace Sys2Proof.Machine

open Sys2Proof

/-! ### State.reply -/

@[simp] theorem State.reply_cfg (r : ResultCode) (s : State) : (s.reply r).cfg = s.cfg := rfl
@[simp] theorem State.reply_dir (r : ResultCode) (s : State) : (s.reply r).dir = s.dir := rfl
@[simp] theorem State.reply_st (r : ResultCode) (s : State) : (s.reply r).st = s.st := rfl
@[simp] theorem State.reply_frameBuffer (r : ResultCode) (s : State) : (s.reply r).frameBuffer = s.frameBuffer := rfl
@[simp] theorem State.reply_payloadLength (r : ResultCode) (s : State) : (s.reply r).payloadLength = s.payloadLength := rfl
@[simp] theorem State.reply_byteIndex (r : ResultCode) (s : State) : (s.reply r).byteIndex = s.byteIndex := rfl
@[simp] theorem State.reply_bitTimer (r : ResultCode) (s : State) : (s.reply r).bitTimer = s.bitTimer := rfl
@[simp] theorem State.reply_lineOut (r : ResultCode) (s : State) : (s.reply r).lineOut = s.lineOut := rfl
@[simp] theorem State.reply_activity (r : ResultCode) (s : State) : (s.reply r).activity = s.activity := rfl
@[simp] theorem State.reply_lockCount (r : ResultCode) (s : State) : (s.reply r).lockCount = s.lockCount := rfl
@[simp] theorem State.reply_shiftReg (r : ResultCode) (s : State) : (s.reply r).shiftReg = s.shiftReg := rfl
@[simp] theorem State.reply_ownAddress (r : ResultCode) (s : State) : (s.reply r).ownAddress = s.ownAddress := rfl
@[simp] theorem State.reply_baud (r : ResultCode) (s : State) : (s.reply r).baud = s.baud := rfl
@[simp] theorem State.reply_prescaler (r : ResultCode) (s : State) : (s.reply r).prescaler = s.prescaler := rfl
@[simp] theorem State.reply_compare (r : ResultCode) (s : State) : (s.reply r).compare = s.compare := rfl
@[simp] theorem State.reply_tickEnable (r : ResultCode) (s : State) : (s.reply r).tickEnable = s.tickEnable := rfl
@[simp] theorem State.reply_tcnt (r : ResultCode) (s : State) : (s.reply r).tcnt = s.tcnt := rfl
@[simp] theorem State.reply_phaseReq (r : ResultCode) (s : State) : (s.reply r).phaseReq = s.phaseReq := rfl
@[simp] theorem State.reply_crcAcc (r : ResultCode) (s : State) : (s.reply r).crcAcc = s.crcAcc := rfl
@[simp] theorem State.reply_spin (r : ResultCode) (s : State) : (s.reply r).spin = s.spin := rfl
@[simp] theorem State.reply_tickDue (r : ResultCode) (s : State) : (s.reply r).tickDue = s.tickDue := rfl
@[simp] theorem State.reply_lineIn (r : ResultCode) (s : State) : (s.reply r).lineIn = s.lineIn := rfl
@[simp] theorem State.reply_receivePending (r : ResultCode) (s : State) : (s.reply r).receivePending = s.receivePending := rfl
@[simp] theorem State.reply_recvActive (r : ResultCode) (s : State) : (s.reply r).recvActive = s.recvActive := rfl
@[simp] theorem State.reply_hostReturn (r : ResultCode) (s : State) : (s.reply r).hostReturn = .result r := rfl
@[simp] theorem State.reply_outCapacity (r : ResultCode) (s : State) : (s.reply r).outCapacity = s.outCapacity := rfl
@[simp] theorem State.reply_hostQueue (r : ResultCode) (s : State) : (s.reply r).hostQueue = s.hostQueue := rfl
@[simp] theorem State.reply_schedule (r : ResultCode) (s : State) : (s.reply r).schedule = s.schedule := rfl

/-! ### State.replyWith -/

@[simp] theorem State.replyWith_cfg (i : ReturnInfo) (s : State) : (s.replyWith i).cfg = s.cfg := rfl
@[simp] theorem State.replyWith_dir (i : ReturnInfo) (s : State) : (s.replyWith i).dir = s.dir := rfl
@[simp] theorem State.replyWith_st (i : ReturnInfo) (s : State) : (s.replyWith i).st = s.st := rfl
@[simp] theorem State.replyWith_frameBuffer (i : ReturnInfo) (s : State) : (s.replyWith i).frameBuffer = s.frameBuffer := rfl
@[simp] theorem State.replyWith_payloadLength (i : ReturnInfo) (s : State) : (s.replyWith i).payloadLength = s.payloadLength := rfl
@[simp] theorem State.replyWith_byteIndex (i : ReturnInfo) (s : State) : (s.replyWith i).byteIndex = s.byteIndex := rfl
@[simp] theorem State.replyWith_bitTimer (i : ReturnInfo) (s : State) : (s.replyWith i).bitTimer = s.bitTimer := rfl
@[simp] theorem State.replyWith_lineOut (i : ReturnInfo) (s : State) : (s.replyWith i).lineOut = s.lineOut := rfl
@[simp] theorem State.replyWith_activity (i : ReturnInfo) (s : State) : (s.replyWith i).activity = s.activity := rfl
@[simp] theorem State.replyWith_lockCount (i : ReturnInfo) (s : State) : (s.replyWith i).lockCount = s.lockCount := rfl
@[simp] theorem State.replyWith_shiftReg (i : ReturnInfo) (s : State) : (s.replyWith i).shiftReg = s.shiftReg := rfl
@[simp] theorem State.replyWith_ownAddress (i : ReturnInfo) (s : State) : (s.replyWith i).ownAddress = s.ownAddress := rfl
@[simp] theorem State.replyWith_baud (i : ReturnInfo) (s : State) : (s.replyWith i).baud = s.baud := rfl
@[simp] theorem State.replyWith_prescaler (i : ReturnInfo) (s : State) : (s.replyWith i).prescaler = s.prescaler := rfl
@[simp] theorem State.replyWith_compare (i : ReturnInfo) (s : State) : (s.replyWith i).compare = s.compare := rfl
@[simp] theorem State.replyWith_tickEnable (i : ReturnInfo) (s : State) : (s.replyWith i).tickEnable = s.tickEnable := rfl
@[simp] theorem State.replyWith_tcnt (i : ReturnInfo) (s : State) : (s.replyWith i).tcnt = s.tcnt := rfl
@[simp] theorem State.replyWith_phaseReq (i : ReturnInfo) (s : State) : (s.replyWith i).phaseReq = s.phaseReq := rfl
@[simp] theorem State.replyWith_crcAcc (i : ReturnInfo) (s : State) : (s.replyWith i).crcAcc = s.crcAcc := rfl
@[simp] theorem State.replyWith_spin (i : ReturnInfo) (s : State) : (s.replyWith i).spin = s.spin := rfl
@[simp] theorem State.replyWith_tickDue (i : ReturnInfo) (s : State) : (s.replyWith i).tickDue = s.tickDue := rfl
@[simp] theorem State.replyWith_lineIn (i : ReturnInfo) (s : State) : (s.replyWith i).lineIn = s.lineIn := rfl
@[simp] theorem State.replyWith_receivePending (i : ReturnInfo) (s : State) : (s.replyWith i).receivePending = s.receivePending := rfl
@[simp] theorem State.replyWith_recvActive (i : ReturnInfo) (s : State) : (s.replyWith i).recvActive = s.recvActive := rfl
@[simp] theorem State.replyWith_hostReturn (i : ReturnInfo) (s : State) : (s.replyWith i).hostReturn = { code := some .ok, info := i } := rfl
@[simp] theorem State.replyWith_outCapacity (i : ReturnInfo) (s : State) : (s.replyWith i).outCapacity = s.outCapacity := rfl
@[simp] theorem State.replyWith_hostQueue (i : ReturnInfo) (s : State) : (s.replyWith i).hostQueue = s.hostQueue := rfl
@[simp] theorem State.replyWith_schedule (i : ReturnInfo) (s : State) : (s.replyWith i).schedule = s.schedule := rfl

/-! ### State.answer -/

@[simp] theorem State.answer_cfg (i : ReturnInfo) (s : State) : (s.answer i).cfg = s.cfg := rfl
@[simp] theorem State.answer_dir (i : ReturnInfo) (s : State) : (s.answer i).dir = s.dir := rfl
@[simp] theorem State.answer_st (i : ReturnInfo) (s : State) : (s.answer i).st = s.st := rfl
@[simp] theorem State.answer_frameBuffer (i : ReturnInfo) (s : State) : (s.answer i).frameBuffer = s.frameBuffer := rfl
@[simp] theorem State.answer_payloadLength (i : ReturnInfo) (s : State) : (s.answer i).payloadLength = s.payloadLength := rfl
@[simp] theorem State.answer_byteIndex (i : ReturnInfo) (s : State) : (s.answer i).byteIndex = s.byteIndex := rfl
@[simp] theorem State.answer_bitTimer (i : ReturnInfo) (s : State) : (s.answer i).bitTimer = s.bitTimer := rfl
@[simp] theorem State.answer_lineOut (i : ReturnInfo) (s : State) : (s.answer i).lineOut = s.lineOut := rfl
@[simp] theorem State.answer_activity (i : ReturnInfo) (s : State) : (s.answer i).activity = s.activity := rfl
@[simp] theorem State.answer_lockCount (i : ReturnInfo) (s : State) : (s.answer i).lockCount = s.lockCount := rfl
@[simp] theorem State.answer_shiftReg (i : ReturnInfo) (s : State) : (s.answer i).shiftReg = s.shiftReg := rfl
@[simp] theorem State.answer_ownAddress (i : ReturnInfo) (s : State) : (s.answer i).ownAddress = s.ownAddress := rfl
@[simp] theorem State.answer_baud (i : ReturnInfo) (s : State) : (s.answer i).baud = s.baud := rfl
@[simp] theorem State.answer_prescaler (i : ReturnInfo) (s : State) : (s.answer i).prescaler = s.prescaler := rfl
@[simp] theorem State.answer_compare (i : ReturnInfo) (s : State) : (s.answer i).compare = s.compare := rfl
@[simp] theorem State.answer_tickEnable (i : ReturnInfo) (s : State) : (s.answer i).tickEnable = s.tickEnable := rfl
@[simp] theorem State.answer_tcnt (i : ReturnInfo) (s : State) : (s.answer i).tcnt = s.tcnt := rfl
@[simp] theorem State.answer_phaseReq (i : ReturnInfo) (s : State) : (s.answer i).phaseReq = s.phaseReq := rfl
@[simp] theorem State.answer_crcAcc (i : ReturnInfo) (s : State) : (s.answer i).crcAcc = s.crcAcc := rfl
@[simp] theorem State.answer_spin (i : ReturnInfo) (s : State) : (s.answer i).spin = s.spin := rfl
@[simp] theorem State.answer_tickDue (i : ReturnInfo) (s : State) : (s.answer i).tickDue = s.tickDue := rfl
@[simp] theorem State.answer_lineIn (i : ReturnInfo) (s : State) : (s.answer i).lineIn = s.lineIn := rfl
@[simp] theorem State.answer_receivePending (i : ReturnInfo) (s : State) : (s.answer i).receivePending = s.receivePending := rfl
@[simp] theorem State.answer_recvActive (i : ReturnInfo) (s : State) : (s.answer i).recvActive = s.recvActive := rfl
@[simp] theorem State.answer_hostReturn (i : ReturnInfo) (s : State) : (s.answer i).hostReturn = .value i := rfl
@[simp] theorem State.answer_outCapacity (i : ReturnInfo) (s : State) : (s.answer i).outCapacity = s.outCapacity := rfl
@[simp] theorem State.answer_hostQueue (i : ReturnInfo) (s : State) : (s.answer i).hostQueue = s.hostQueue := rfl
@[simp] theorem State.answer_schedule (i : ReturnInfo) (s : State) : (s.answer i).schedule = s.schedule := rfl

/-! ### State.enterPhase -/

@[simp] theorem State.enterPhase_cfg (p : LinkState) (n : Nat) (s : State) : (s.enterPhase p n).cfg = s.cfg := rfl
@[simp] theorem State.enterPhase_dir (p : LinkState) (n : Nat) (s : State) : (s.enterPhase p n).dir = s.dir := rfl
@[simp] theorem State.enterPhase_st (p : LinkState) (n : Nat) (s : State) : (s.enterPhase p n).st = p := rfl
@[simp] theorem State.enterPhase_frameBuffer (p : LinkState) (n : Nat) (s : State) : (s.enterPhase p n).frameBuffer = s.frameBuffer := rfl
@[simp] theorem State.enterPhase_payloadLength (p : LinkState) (n : Nat) (s : State) : (s.enterPhase p n).payloadLength = s.payloadLength := rfl
@[simp] theorem State.enterPhase_byteIndex (p : LinkState) (n : Nat) (s : State) : (s.enterPhase p n).byteIndex = s.byteIndex := rfl
@[simp] theorem State.enterPhase_bitTimer (p : LinkState) (n : Nat) (s : State) : (s.enterPhase p n).bitTimer = n := rfl
@[simp] theorem State.enterPhase_lineOut (p : LinkState) (n : Nat) (s : State) : (s.enterPhase p n).lineOut = s.lineOut := rfl
@[simp] theorem State.enterPhase_activity (p : LinkState) (n : Nat) (s : State) : (s.enterPhase p n).activity = s.activity := rfl
@[simp] theorem State.enterPhase_lockCount (p : LinkState) (n : Nat) (s : State) : (s.enterPhase p n).lockCount = s.lockCount := rfl
@[simp] theorem State.enterPhase_shiftReg (p : LinkState) (n : Nat) (s : State) : (s.enterPhase p n).shiftReg = s.shiftReg := rfl
@[simp] theorem State.enterPhase_ownAddress (p : LinkState) (n : Nat) (s : State) : (s.enterPhase p n).ownAddress = s.ownAddress := rfl
@[simp] theorem State.enterPhase_baud (p : LinkState) (n : Nat) (s : State) : (s.enterPhase p n).baud = s.baud := rfl
@[simp] theorem State.enterPhase_prescaler (p : LinkState) (n : Nat) (s : State) : (s.enterPhase p n).prescaler = s.prescaler := rfl
@[simp] theorem State.enterPhase_compare (p : LinkState) (n : Nat) (s : State) : (s.enterPhase p n).compare = s.compare := rfl
@[simp] theorem State.enterPhase_tickEnable (p : LinkState) (n : Nat) (s : State) : (s.enterPhase p n).tickEnable = s.tickEnable := rfl
@[simp] theorem State.enterPhase_tcnt (p : LinkState) (n : Nat) (s : State) : (s.enterPhase p n).tcnt = s.tcnt := rfl
@[simp] theorem State.enterPhase_phaseReq (p : LinkState) (n : Nat) (s : State) : (s.enterPhase p n).phaseReq = s.phaseReq := rfl
@[simp] theorem State.enterPhase_crcAcc (p : LinkState) (n : Nat) (s : State) : (s.enterPhase p n).crcAcc = s.crcAcc := rfl
@[simp] theorem State.enterPhase_spin (p : LinkState) (n : Nat) (s : State) : (s.enterPhase p n).spin = s.spin := rfl
@[simp] theorem State.enterPhase_tickDue (p : LinkState) (n : Nat) (s : State) : (s.enterPhase p n).tickDue = s.tickDue := rfl
@[simp] theorem State.enterPhase_lineIn (p : LinkState) (n : Nat) (s : State) : (s.enterPhase p n).lineIn = s.lineIn := rfl
@[simp] theorem State.enterPhase_receivePending (p : LinkState) (n : Nat) (s : State) : (s.enterPhase p n).receivePending = s.receivePending := rfl
@[simp] theorem State.enterPhase_recvActive (p : LinkState) (n : Nat) (s : State) : (s.enterPhase p n).recvActive = s.recvActive := rfl
@[simp] theorem State.enterPhase_hostReturn (p : LinkState) (n : Nat) (s : State) : (s.enterPhase p n).hostReturn = s.hostReturn := rfl
@[simp] theorem State.enterPhase_outCapacity (p : LinkState) (n : Nat) (s : State) : (s.enterPhase p n).outCapacity = s.outCapacity := rfl
@[simp] theorem State.enterPhase_hostQueue (p : LinkState) (n : Nat) (s : State) : (s.enterPhase p n).hostQueue = s.hostQueue := rfl
@[simp] theorem State.enterPhase_schedule (p : LinkState) (n : Nat) (s : State) : (s.enterPhase p n).schedule = s.schedule := rfl

/-! ### State.beginRx -/

@[simp] theorem State.beginRx_cfg (s : State) : (s.beginRx).cfg = s.cfg := rfl
@[simp] theorem State.beginRx_dir (s : State) : (s.beginRx).dir = s.dir := rfl
@[simp] theorem State.beginRx_st (s : State) : (s.beginRx).st = s.st := rfl
@[simp] theorem State.beginRx_frameBuffer (s : State) : (s.beginRx).frameBuffer = s.frameBuffer := rfl
@[simp] theorem State.beginRx_payloadLength (s : State) : (s.beginRx).payloadLength = s.payloadLength := rfl
@[simp] theorem State.beginRx_byteIndex (s : State) : (s.beginRx).byteIndex = s.byteIndex := rfl
@[simp] theorem State.beginRx_bitTimer (s : State) : (s.beginRx).bitTimer = s.bitTimer := rfl
@[simp] theorem State.beginRx_lineOut (s : State) : (s.beginRx).lineOut = s.lineOut := rfl
@[simp] theorem State.beginRx_activity (s : State) : (s.beginRx).activity = s.activity := rfl
@[simp] theorem State.beginRx_lockCount (s : State) : (s.beginRx).lockCount = s.lockCount := rfl
@[simp] theorem State.beginRx_shiftReg (s : State) : (s.beginRx).shiftReg = s.shiftReg := rfl
@[simp] theorem State.beginRx_ownAddress (s : State) : (s.beginRx).ownAddress = s.ownAddress := rfl
@[simp] theorem State.beginRx_baud (s : State) : (s.beginRx).baud = s.baud := rfl
@[simp] theorem State.beginRx_prescaler (s : State) : (s.beginRx).prescaler = s.prescaler := rfl
@[simp] theorem State.beginRx_compare (s : State) : (s.beginRx).compare = s.compare := rfl
@[simp] theorem State.beginRx_tickEnable (s : State) : (s.beginRx).tickEnable = s.tickEnable := rfl
@[simp] theorem State.beginRx_tcnt (s : State) : (s.beginRx).tcnt = s.tcnt := rfl
@[simp] theorem State.beginRx_phaseReq (s : State) : (s.beginRx).phaseReq = false := rfl
@[simp] theorem State.beginRx_crcAcc (s : State) : (s.beginRx).crcAcc = s.crcAcc := rfl
@[simp] theorem State.beginRx_spin (s : State) : (s.beginRx).spin = s.spin := rfl
@[simp] theorem State.beginRx_tickDue (s : State) : (s.beginRx).tickDue = s.tickDue := rfl
@[simp] theorem State.beginRx_lineIn (s : State) : (s.beginRx).lineIn = s.lineIn := rfl
@[simp] theorem State.beginRx_receivePending (s : State) : (s.beginRx).receivePending = s.receivePending := rfl
@[simp] theorem State.beginRx_recvActive (s : State) : (s.beginRx).recvActive = s.recvActive := rfl
@[simp] theorem State.beginRx_hostReturn (s : State) : (s.beginRx).hostReturn = s.hostReturn := rfl
@[simp] theorem State.beginRx_outCapacity (s : State) : (s.beginRx).outCapacity = s.outCapacity := rfl
@[simp] theorem State.beginRx_hostQueue (s : State) : (s.beginRx).hostQueue = s.hostQueue := rfl
@[simp] theorem State.beginRx_schedule (s : State) : (s.beginRx).schedule = s.schedule := rfl

/-! ### State.recvDone -/

@[simp] theorem State.recvDone_cfg (r : HostReturn) (s : State) : (s.recvDone r).cfg = s.cfg := rfl
@[simp] theorem State.recvDone_dir (r : HostReturn) (s : State) : (s.recvDone r).dir = s.dir := rfl
@[simp] theorem State.recvDone_st (r : HostReturn) (s : State) : (s.recvDone r).st = s.st := rfl
@[simp] theorem State.recvDone_frameBuffer (r : HostReturn) (s : State) : (s.recvDone r).frameBuffer = s.frameBuffer := rfl
@[simp] theorem State.recvDone_payloadLength (r : HostReturn) (s : State) : (s.recvDone r).payloadLength = s.payloadLength := rfl
@[simp] theorem State.recvDone_byteIndex (r : HostReturn) (s : State) : (s.recvDone r).byteIndex = s.byteIndex := rfl
@[simp] theorem State.recvDone_bitTimer (r : HostReturn) (s : State) : (s.recvDone r).bitTimer = s.bitTimer := rfl
@[simp] theorem State.recvDone_lineOut (r : HostReturn) (s : State) : (s.recvDone r).lineOut = s.lineOut := rfl
@[simp] theorem State.recvDone_activity (r : HostReturn) (s : State) : (s.recvDone r).activity = s.activity := rfl
@[simp] theorem State.recvDone_lockCount (r : HostReturn) (s : State) : (s.recvDone r).lockCount = s.lockCount := rfl
@[simp] theorem State.recvDone_shiftReg (r : HostReturn) (s : State) : (s.recvDone r).shiftReg = s.shiftReg := rfl
@[simp] theorem State.recvDone_ownAddress (r : HostReturn) (s : State) : (s.recvDone r).ownAddress = s.ownAddress := rfl
@[simp] theorem State.recvDone_baud (r : HostReturn) (s : State) : (s.recvDone r).baud = s.baud := rfl
@[simp] theorem State.recvDone_prescaler (r : HostReturn) (s : State) : (s.recvDone r).prescaler = s.prescaler := rfl
@[simp] theorem State.recvDone_compare (r : HostReturn) (s : State) : (s.recvDone r).compare = s.compare := rfl
@[simp] theorem State.recvDone_tickEnable (r : HostReturn) (s : State) : (s.recvDone r).tickEnable = s.tickEnable := rfl
@[simp] theorem State.recvDone_tcnt (r : HostReturn) (s : State) : (s.recvDone r).tcnt = s.tcnt := rfl
@[simp] theorem State.recvDone_phaseReq (r : HostReturn) (s : State) : (s.recvDone r).phaseReq = s.phaseReq := rfl
@[simp] theorem State.recvDone_crcAcc (r : HostReturn) (s : State) : (s.recvDone r).crcAcc = s.crcAcc := rfl
@[simp] theorem State.recvDone_spin (r : HostReturn) (s : State) : (s.recvDone r).spin = s.spin := rfl
@[simp] theorem State.recvDone_tickDue (r : HostReturn) (s : State) : (s.recvDone r).tickDue = s.tickDue := rfl
@[simp] theorem State.recvDone_lineIn (r : HostReturn) (s : State) : (s.recvDone r).lineIn = s.lineIn := rfl
@[simp] theorem State.recvDone_receivePending (r : HostReturn) (s : State) : (s.recvDone r).receivePending = s.receivePending := rfl
@[simp] theorem State.recvDone_recvActive (r : HostReturn) (s : State) : (s.recvDone r).recvActive = false := rfl
@[simp] theorem State.recvDone_hostReturn (r : HostReturn) (s : State) : (s.recvDone r).hostReturn = r := rfl
@[simp] theorem State.recvDone_outCapacity (r : HostReturn) (s : State) : (s.recvDone r).outCapacity = s.outCapacity := rfl
@[simp] theorem State.recvDone_hostQueue (r : HostReturn) (s : State) : (s.recvDone r).hostQueue = s.hostQueue := rfl
@[simp] theorem State.recvDone_schedule (r : HostReturn) (s : State) : (s.recvDone r).schedule = s.schedule := rfl

/-! ### tickEntry -/

@[simp] theorem tickEntry_cfg (b : Bool) (s : State) : (tickEntry b s).cfg = s.cfg := rfl
@[simp] theorem tickEntry_dir (b : Bool) (s : State) : (tickEntry b s).dir = s.dir := rfl
@[simp] theorem tickEntry_st (b : Bool) (s : State) : (tickEntry b s).st = s.st := rfl
@[simp] theorem tickEntry_frameBuffer (b : Bool) (s : State) : (tickEntry b s).frameBuffer = s.frameBuffer := rfl
@[simp] theorem tickEntry_payloadLength (b : Bool) (s : State) : (tickEntry b s).payloadLength = s.payloadLength := rfl
@[simp] theorem tickEntry_byteIndex (b : Bool) (s : State) : (tickEntry b s).byteIndex = s.byteIndex := rfl
@[simp] theorem tickEntry_bitTimer (b : Bool) (s : State) : (tickEntry b s).bitTimer = s.bitTimer := rfl
@[simp] theorem tickEntry_lineOut (b : Bool) (s : State) : (tickEntry b s).lineOut = s.lineOut := rfl
@[simp] theorem tickEntry_activity (b : Bool) (s : State) : (tickEntry b s).activity = s.activity := rfl
@[simp] theorem tickEntry_lockCount (b : Bool) (s : State) : (tickEntry b s).lockCount = s.lockCount := rfl
@[simp] theorem tickEntry_shiftReg (b : Bool) (s : State) : (tickEntry b s).shiftReg = s.shiftReg := rfl
@[simp] theorem tickEntry_ownAddress (b : Bool) (s : State) : (tickEntry b s).ownAddress = s.ownAddress := rfl
@[simp] theorem tickEntry_baud (b : Bool) (s : State) : (tickEntry b s).baud = s.baud := rfl
@[simp] theorem tickEntry_prescaler (b : Bool) (s : State) : (tickEntry b s).prescaler = s.prescaler := rfl
@[simp] theorem tickEntry_compare (b : Bool) (s : State) : (tickEntry b s).compare = s.compare := rfl
@[simp] theorem tickEntry_tickEnable (b : Bool) (s : State) : (tickEntry b s).tickEnable = s.tickEnable := rfl
@[simp] theorem tickEntry_tcnt (b : Bool) (s : State) : (tickEntry b s).tcnt = s.tcnt := rfl
@[simp] theorem tickEntry_phaseReq (b : Bool) (s : State) : (tickEntry b s).phaseReq = s.phaseReq := rfl
@[simp] theorem tickEntry_crcAcc (b : Bool) (s : State) : (tickEntry b s).crcAcc = s.crcAcc := rfl
@[simp] theorem tickEntry_spin (b : Bool) (s : State) : (tickEntry b s).spin = s.spin := rfl
@[simp] theorem tickEntry_tickDue (b : Bool) (s : State) : (tickEntry b s).tickDue = s.tickDue := rfl
@[simp] theorem tickEntry_lineIn (b : Bool) (s : State) : (tickEntry b s).lineIn = b := rfl
@[simp] theorem tickEntry_receivePending (b : Bool) (s : State) : (tickEntry b s).receivePending = s.receivePending := rfl
@[simp] theorem tickEntry_recvActive (b : Bool) (s : State) : (tickEntry b s).recvActive = s.recvActive := rfl
@[simp] theorem tickEntry_hostReturn (b : Bool) (s : State) : (tickEntry b s).hostReturn = s.hostReturn := rfl
@[simp] theorem tickEntry_outCapacity (b : Bool) (s : State) : (tickEntry b s).outCapacity = s.outCapacity := rfl
@[simp] theorem tickEntry_hostQueue (b : Bool) (s : State) : (tickEntry b s).hostQueue = s.hostQueue := rfl
@[simp] theorem tickEntry_schedule (b : Bool) (s : State) : (tickEntry b s).schedule = s.schedule := rfl

end Sys2Proof.Machine
end

