-- ==== Sys2Proof/Laws/Ops.lean ====
section
/-! SUPPORT. What each shared operation can do, said once. -/

namespace Sys2Proof

@[simp] theorem Dir.ofCode_code (d : Dir) : Dir.ofCode d.code = d := by cases d <;> rfl

@[simp] theorem LinkState.ofCode_code (st : LinkState) : LinkState.ofCode st.code = st := by
  cases st with
  | reserved k => revert k; decide
  | _ => rfl

theorem LinkState.code_ofCode (c : BitVec 4) : (LinkState.ofCode c).code = c := by revert c; decide

theorem Dir.code_ofCode (c : BitVec 2) : (Dir.ofCode c).code = c := by revert c; decide

/-- The fields of a dispatch key. -/
theorem dispatchKey_fields (d : Dir) (st : LinkState) :
    (dispatchKey d st).extractLsb' 4 2 = d.code ∧ (dispatchKey d st).extractLsb' 0 4 = st.code := by
  have key : ∀ (c : BitVec 2) (x : BitVec 4),
      (c ++ x).extractLsb' 4 2 = c ∧ (c ++ x).extractLsb' 0 4 = x := by decide
  exact key d.code st.code

end Sys2Proof

namespace Sys2Proof.Machine

open Sys2Proof

variable {s t : State} {finish : State → Host.Outcome State Fault Refusal}

/-! ### The frame buffer -/

theorem bufRead_of_lt {i : Nat} (h : i < maxFrameSize) (s : State) :
    bufRead i s = some (s.frameBuffer.read i) := if_pos h

theorem bufRead_of_ge {i : Nat} (h : maxFrameSize ≤ i) (s : State) : bufRead i s = none :=
  if_neg (Nat.not_lt.2 h)

theorem bufWrite_of_lt {i : Nat} (h : i < maxFrameSize) (v : Byte) (s : State) :
    bufWrite i v s = some { s with frameBuffer := s.frameBuffer.write i v } := if_pos h

theorem bufWrite_of_ge {i : Nat} (h : maxFrameSize ≤ i) (v : Byte) (s : State) : bufWrite i v s = none :=
  if_neg (Nat.not_lt.2 h)

/-! ### Countdowns -/

theorem countdown_stopped (h : s.bitTimer = 0) : countdown finish s = .fault .unreachableState := if_pos h

theorem countdown_running (h : 2 ≤ s.bitTimer) :
    countdown finish s = .next { s with bitTimer := s.bitTimer - 1 } := by
  simp only [countdown]
  rw [if_neg (by omega), if_neg (by omega)]

theorem countdown_last (h : s.bitTimer = 1) : countdown finish s = finish { s with bitTimer := 0 } := by
  simp [countdown, h]

/-- A tick of a countdown that goes on: it counted down, or it was the last and the phase ended. -/
theorem countdown_cases (h : countdown finish s = .next t) :
    2 ≤ s.bitTimer ∧ t = { s with bitTimer := s.bitTimer - 1 } ∨
    s.bitTimer = 1 ∧ finish { s with bitTimer := 0 } = .next t := by
  rcases Nat.lt_or_ge s.bitTimer 2 with hlt | hge
  · rcases Nat.eq_zero_or_pos s.bitTimer with h0 | hpos
    · rw [countdown_stopped h0] at h; cases h
    · have h1 : s.bitTimer = 1 := by omega
      rw [countdown_last h1] at h
      exact .inr ⟨h1, h⟩
  · rw [countdown_running hge] at h
    injection h with h
    exact .inl ⟨hge, h.symm⟩

/-! ### Slots -/

theorem slotTick_of_bounds (h : 1 ≤ s.bitTimer) (h' : s.bitTimer ≤ s.cfg.tbyte) :
    slotTick s = some (s.cfg.tbyte - s.bitTimer) := if_neg (by omega)

theorem slotTick_broken (h : s.bitTimer = 0 ∨ s.cfg.tbyte < s.bitTimer) : slotTick s = none := if_pos h

/-- The index of a slot tick, where there is one. -/
theorem slotTick_cases {k : Nat} (h : slotTick s = some k) :
    1 ≤ s.bitTimer ∧ s.bitTimer ≤ s.cfg.tbyte ∧ k = s.cfg.tbyte - s.bitTimer := by
  unfold slotTick at h
  split at h
  · cases h
  · injection h with h
    omega

theorem txSlot_of_bounds {w : BitVec 11} (h : 1 ≤ s.bitTimer) (h' : s.bitTimer ≤ s.cfg.tbyte) :
    txSlot w finish s =
      countdown finish { s with lineOut := slotBit s.cfg w (s.cfg.tbyte - s.bitTimer) } := by
  simp [txSlot, slotTick_of_bounds h h']

/-- A TX slot tick that goes on: it drove the slot bit, and counted down or ended the slot. -/
theorem txSlot_cases {w : BitVec 11} (h : txSlot w finish s = .next t) :
    s.bitTimer ≤ s.cfg.tbyte ∧
    (2 ≤ s.bitTimer ∧
      t = { s with lineOut := slotBit s.cfg w (s.cfg.tbyte - s.bitTimer), bitTimer := s.bitTimer - 1 } ∨
    s.bitTimer = 1 ∧
      finish { s with lineOut := slotBit s.cfg w (s.cfg.tbyte - s.bitTimer), bitTimer := 0 } = .next t) := by
  unfold txSlot at h
  split at h
  · cases h
  · obtain ⟨-, hle, rfl⟩ := slotTick_cases ‹_›
    exact ⟨hle, countdown_cases h⟩

/-- An RX slot tick that goes on: it took its sample, and counted down or decoded and ended the slot. -/
theorem rxSlot_cases {fin : Byte → State → Host.Outcome State Fault Refusal} (h : rxSlot fin s = .next t) :
    s.bitTimer ≤ s.cfg.tbyte ∧
    (2 ≤ s.bitTimer ∧
      t = { rxSample (s.cfg.tbyte - s.bitTimer) s.lineIn s with bitTimer := s.bitTimer - 1 } ∨
    s.bitTimer = 1 ∧
      fin (wireDecode s.cfg (rxSample (s.cfg.tbyte - 1) s.lineIn s).shiftReg)
        (rxSample (s.cfg.tbyte - 1) s.lineIn s) = .next t) := by
  have cfg_eq : ∀ k b, (rxSample k b s).cfg = s.cfg := by
    intro k b; unfold rxSample; split <;> [rfl; (split <;> rfl)]
  have timer_eq : ∀ k b, (rxSample k b s).bitTimer = s.bitTimer := by
    intro k b; unfold rxSample; split <;> [rfl; (split <;> rfl)]
  unfold rxSlot at h
  split at h
  · cases h
  · obtain ⟨hpos, hle, rfl⟩ := slotTick_cases ‹_›
    refine ⟨hle, ?_⟩
    simp only [timer_eq, cfg_eq] at h
    split at h
    · rename_i h1
      rw [h1] at h
      exact .inr ⟨h1, h⟩
    · injection h with h
      exact .inl ⟨by omega, by simp only [cfg_eq]; exact h.symm⟩

/-- A sample at the framing bit. -/
theorem rxSample_framing (b : Bool) (s : State) :
    rxSample 0 b s = { s with shiftReg := 0, phaseReq := true } := rfl

/-- A sample at a data bit. -/
theorem rxSample_data {k : Nat} (h : 1 ≤ k) (h' : k ≤ wireLength s.cfg - 1) (b : Bool) :
    rxSample k b s = { s with shiftReg := shiftIn s.cfg s.shiftReg b } := by
  unfold rxSample
  rw [if_neg (by omega), if_pos h']

/-- A sample at a gap tick. -/
theorem rxSample_gap {k : Nat} (h : 1 ≤ k) (h' : wireLength s.cfg - 1 < k) (b : Bool) : rxSample k b s = s := by
  unfold rxSample
  rw [if_neg (by omega), if_neg (by omega)]

/-- A sample writes at most `shiftReg` and `phaseReq`. -/
theorem rxSample_cases (k : Nat) (b : Bool) (s : State) :
    ∃ (r : BitVec 10) (p : Bool), rxSample k b s = { s with shiftReg := r, phaseReq := p } := by
  unfold rxSample
  split
  · exact ⟨_, _, rfl⟩
  · split
    · exact ⟨_, s.phaseReq, rfl⟩
    · exact ⟨s.shiftReg, s.phaseReq, rfl⟩

/-! ### The lock-on step -/

theorem lockStep_one (s : State) :
    lockStep true s = { s with lockCount := min (s.lockCount + 1) (s.cfg.nSync / 2 + 1) } := rfl

theorem lockStep_lock (h : s.lockCount = s.cfg.nSync / 2) :
    lockStep false s = { s with st := .sync, bitTimer := s.cfg.nSync / 2 - 1, lockCount := 0 } := by
  simp [lockStep, h, State.enterPhase]

theorem lockStep_reset (h : s.lockCount ≠ s.cfg.nSync / 2) : lockStep false s = { s with lockCount := 0 } := by
  simp [lockStep, h]

end Sys2Proof.Machine
end

