-- ==== Sys2Proof/Laws/Exec.lean ====
section
/-! SUPPORT. What the commands can do: one inversion lemma each, for the case that it answers a next state. -/

namespace Sys2Proof.Machine

open Sys2Proof

variable {s t : State}

/-- IDLE answers only in a state whose code the spec uses, and changes nothing (R101, R104; log 24). -/
theorem execIdle_cases (h : execIdle s = .next t) : s.st.code.toNat < 9 ∧ t = s := by
  unfold execIdle at h
  split at h
  · cases h
  · injection h with h
    exact ⟨by omega, h.symm⟩

/-- TRANSMIT was turned away with a result and no other effect, or it loaded a frame and started the machine. -/
theorem execTransmit_cases {n : Nat} {data : List Byte} (h : execTransmit n data s = .next t) :
    (∃ r, t = s.reply r) ∨
    s.dir = .transmit ∧ s.st = .ready ∧ min n maxFrameSize ≤ data.length ∧
      t = { s with
        frameBuffer := s.frameBuffer.load 0 (data.take (min n maxFrameSize))
        payloadLength := BitVec.ofNat 6 (min n maxFrameSize)
        st := .start
        tcnt := 0
        hostReturn := .result .ok } := by
  simp only [execTransmit] at h
  split at h
  · injection h with h
    exact .inl ⟨_, h.symm⟩
  · rename_i hc
    split at h
    · cases h
    · injection h with h
      unfold transmitCheck at hc
      split at hc
      · cases hc
      · split at hc
        · cases hc
        · exact .inr ⟨by simpa using ‹¬ s.dir ≠ .transmit›, by simpa using ‹¬ s.st ≠ .ready›, by omega, h.symm⟩

/-- RECEIVE's critical phase met in ERROR reports it and restarts the machine (log 27). -/
theorem receiveCritical_error (h : s.st = .error) :
    receiveCritical s =
      .next { s with st := .start, receivePending := false, hostReturn := .result .frameError } := by
  simp only [receiveCritical, h, if_pos, reportFrameError, State.reply]

/-- RECEIVE's critical phase reports a FrameError, in ERROR, or hands out a frame that fits; it sets START. -/
theorem receiveCritical_cases (h : receiveCritical s = .next t) :
    s.st = .error ∧ t = { s with st := .start, receivePending := false, hostReturn := .result .frameError } ∨
    s.st ≠ .error ∧ s.payloadLength.toNat ≤ maxFrameSize ∧ maxFrameSize ≤ s.outCapacity ∧
      t = { s with
        st := .start
        receivePending := false
        hostReturn :=
          { code := some .ok
            info := .frame s.payloadLength (s.frameBuffer.drain s.payloadLength.toNat) } } := by
  by_cases he : s.st = .error
  · rw [receiveCritical_error he] at h
    injection h with h
    exact .inl ⟨he, h.symm⟩
  · unfold receiveCritical at h
    rw [if_neg he] at h
    split at h
    · cases h
    · split at h
      · cases h
      · injection h with h
        exact .inr ⟨he, by omega, by omega, h.symm⟩

/-- RECEIVE's next step: a result without a frame, FrameError with a restart, the end of a check phase, or the critical
phase. -/
theorem execReceive_cases (h : execReceive s = .next t) :
    s.receivePending = false ∧ (∃ r, t = s.reply r) ∨
    s.receivePending = false ∧ s.dir = .receive ∧ s.st = .error ∧
      t = { s with st := .start, hostReturn := .result .frameError } ∨
    s.receivePending = false ∧ s.dir = .receive ∧ s.st = .recv ∧ s.cfg.recvOverwrite = true ∧
      t = { s with receivePending := true } ∨
    (s.receivePending = true ∨ s.dir = .receive ∧ s.st = .recv ∧ s.cfg.recvOverwrite = false) ∧
      receiveCritical s = .next t := by
  unfold execReceive at h
  split at h
  · exact .inr (.inr (.inr ⟨.inl ‹_›, h⟩))
  · have hp : s.receivePending = false := by simpa using ‹¬ s.receivePending = true›
    unfold receiveCheckPhase at h
    by_cases hd : s.dir = .receive
    · by_cases he : s.st = .error
      · have hc : receiveCheck s = some .frameError := by simp [receiveCheck, hd, he]
        simp only [hc] at h
        injection h with h
        exact .inr (.inl ⟨hp, hd, he, h.symm⟩)
      · by_cases hr : s.st = .recv
        · have hc : receiveCheck s = none := by simp [receiveCheck, hd, hr]
          simp only [hc] at h
          split at h
          · injection h with h
            exact .inr (.inr (.inl ⟨hp, hd, hr, ‹_›, h.symm⟩))
          · exact .inr (.inr (.inr ⟨.inr ⟨hd, hr, by simpa using ‹¬ s.cfg.recvOverwrite = true›⟩, h⟩))
        · have hc : receiveCheck s = some .noData := by simp [receiveCheck, hd, he, hr]
          simp only [hc] at h
          injection h with h
          exact .inl ⟨hp, _, h.symm⟩
    · have hc : receiveCheck s = some .configError := by simp [receiveCheck, hd]
      simp only [hc] at h
      injection h with h
      exact .inl ⟨hp, _, h.symm⟩

/-- CONFIGURE was turned away with ConfigError, or it configured the link with a compare value that fits. -/
theorem execConfigure_cases {rate : Nat} {d : Dir} (h : execConfigure rate d s = .next t) :
    d ≠ .reserved ∧
    ((rate < 100 ∨ 5000 < rate) ∧ t = s.reply .configError ∨
      100 ≤ rate ∧ rate ≤ 5000 ∧ ∃ cmp, compareOf s.cfg rate = some cmp ∧
        t = { s with
          dir := d
          baud := BitVec.ofNat 13 rate
          prescaler := prescaleOf rate
          compare := cmp
          st := .ready
          lockCount := 0
          tcnt := 0
          tickEnable := true
          hostReturn := .result .ok }) := by
  unfold execConfigure at h
  split at h
  · cases h
  · refine ⟨‹_›, ?_⟩
    split at h
    · injection h with h
      refine .inl ⟨?_, h.symm⟩
      simpa [rateOutOfRange] using ‹rateOutOfRange rate = true›
    · have hr : 100 ≤ rate ∧ rate ≤ 5000 := by
        simpa [rateOutOfRange, not_or] using ‹¬ rateOutOfRange rate = true›
      split at h
      · cases h
      · injection h with h
        exact .inr ⟨hr.1, hr.2, _, ‹_›, h.symm⟩

/-- A compare value fits its register (R233). -/
theorem compareOf_lt {cfg : Config} {rate c : Nat} (h : compareOf cfg rate = some c) : c < 2 ^ cfg.cmpWidth := by
  simp only [compareOf] at h
  split at h
  · cases h
  · split at h
    · injection h with h
      omega
    · cases h

/-- A compare value, from the quotient the rule forms (R233). -/
theorem compareOf_of_quotient {cfg : Config} {rate q : Nat} (hq : cfg.fClk / divisor (prescaleOf rate) / rate = q)
    (h1 : 1 ≤ q) (h2 : q - 1 < 2 ^ cfg.cmpWidth) : compareOf cfg rate = some (q - 1) := by
  simp only [compareOf, hq]
  rw [if_neg (by omega), if_pos h2]

end Sys2Proof.Machine
end

