-- ==== Sys2Proof/Laws/PerInstr.lean ====
section
/-! SUPPORT. The round trip of encoding and decoding, instruction by instruction. -/

namespace Sys2Proof.Laws

open Sys2Proof

/-- Decoding the code of `i` gives `i` back, wherever `i` is well formed. -/
def RoundTrip.Statement (i : Instr) : Prop :=
  ∀ cfg : Config, i.wellFormed cfg = true → decode (encode cfg i) = .ok i

/-- The low part of an appended word. -/
theorem append_low {a b : Nat} (x : BitVec a) (y : BitVec b) : (x ++ y).extractLsb' 0 b = y := by
  ext i h
  simp [BitVec.getLsbD_append, h]

/-- The middle part of an appended word. -/
theorem append_mid {a b c : Nat} (x : BitVec a) (y : BitVec b) (z : BitVec c) :
    (x ++ y ++ z).extractLsb' c b = y := by
  ext i h
  simp [BitVec.getLsbD_append, h]

/-- The top bit of an appended word. -/
theorem append_top {b c : Nat} (x : BitVec 1) (y : BitVec b) (z : BitVec c) :
    (x ++ y ++ z).getLsbD (c + b) = x.getLsbD 0 := by
  rw [BitVec.getLsbD_append, BitVec.getLsbD_append, if_neg (by omega), if_neg (by omega)]
  congr 1
  omega

theorem RoundTrip.idle (st : BitVec 4) : RoundTrip.Statement (.idle st) := by
  have key : ∀ st : BitVec 4, decode (encode Config.rawTest (.idle st)) = .ok (.idle st) := by decide
  exact fun _ _ => key st

theorem RoundTrip.txReady : RoundTrip.Statement (.txReady) := by
  intro _ _; rfl

theorem RoundTrip.txStart : RoundTrip.Statement (.txStart) := by
  intro _ _; rfl

theorem RoundTrip.txStrobe : RoundTrip.Statement (.txStrobe) := by
  intro _ _; rfl

theorem RoundTrip.txSync : RoundTrip.Statement (.txSync) := by
  intro _ _; rfl

theorem RoundTrip.txPayload : RoundTrip.Statement (.txPayload) := by
  intro _ _; rfl

theorem RoundTrip.txData : RoundTrip.Statement (.txData) := by
  intro _ _; rfl

theorem RoundTrip.txLeadout : RoundTrip.Statement (.txLeadout) := by
  intro _ _; rfl

theorem RoundTrip.txUnreachableRecv : RoundTrip.Statement (.txUnreachableRecv) := by
  intro _ _; rfl

theorem RoundTrip.txUnreachableHigh (low : BitVec 3) : RoundTrip.Statement (.txUnreachableHigh low) := by
  have key : ∀ low : BitVec 3,
      decode (encode Config.rawTest (.txUnreachableHigh low)) = .ok (.txUnreachableHigh low) := by decide
  exact fun _ _ => key low

theorem RoundTrip.rxReady : RoundTrip.Statement (.rxReady) := by
  intro _ _; rfl

theorem RoundTrip.rxStart : RoundTrip.Statement (.rxStart) := by
  intro _ _; rfl

theorem RoundTrip.rxUnreachableStrobe : RoundTrip.Statement (.rxUnreachableStrobe) := by
  intro _ _; rfl

theorem RoundTrip.rxSync : RoundTrip.Statement (.rxSync) := by
  intro _ _; rfl

theorem RoundTrip.rxPayload : RoundTrip.Statement (.rxPayload) := by
  intro _ _; rfl

theorem RoundTrip.rxData : RoundTrip.Statement (.rxData) := by
  intro _ _; rfl

theorem RoundTrip.rxLeadout : RoundTrip.Statement (.rxLeadout) := by
  intro _ _; rfl

theorem RoundTrip.rxRecv : RoundTrip.Statement (.rxRecv) := by
  intro _ _; rfl

theorem RoundTrip.rxError : RoundTrip.Statement (.rxError) := by
  intro _ _; rfl

theorem RoundTrip.rxUnreachable9 : RoundTrip.Statement (.rxUnreachable9) := by
  intro _ _; rfl

theorem RoundTrip.rxUnreachable10 : RoundTrip.Statement (.rxUnreachable10) := by
  intro _ _; rfl

theorem RoundTrip.rxUnreachable11 : RoundTrip.Statement (.rxUnreachable11) := by
  intro _ _; rfl

theorem RoundTrip.rxUnreachable12 : RoundTrip.Statement (.rxUnreachable12) := by
  intro _ _; rfl

theorem RoundTrip.rxUnreachable13 : RoundTrip.Statement (.rxUnreachable13) := by
  intro _ _; rfl

theorem RoundTrip.rxUnreachable14 : RoundTrip.Statement (.rxUnreachable14) := by
  intro _ _; rfl

theorem RoundTrip.rxUnreachable15 : RoundTrip.Statement (.rxUnreachable15) := by
  intro _ _; rfl

theorem RoundTrip.reservedDir3 (st : BitVec 4) : RoundTrip.Statement (.reservedDir3 st) := by
  have key : ∀ st : BitVec 4, decode (encode Config.rawTest (.reservedDir3 st)) = .ok (.reservedDir3 st) := by decide
  exact fun _ _ => key st

theorem RoundTrip.configure (rate : Nat) (d : Dir) : RoundTrip.Statement (.configure rate d) := by
  intro _ h; cases d <;> first | rfl | simp [Instr.wellFormed] at h

theorem RoundTrip.transmit (n : Nat) (data : List Byte) : RoundTrip.Statement (.transmit n data) := by
  intro _ _; rfl

theorem RoundTrip.receive : RoundTrip.Statement (.receive) := by
  intro _ _; rfl

theorem RoundTrip.setAddress (addr : BitVec 16) : RoundTrip.Statement (.setAddress addr) := by
  intro _ _; rfl

theorem RoundTrip.crcInit : RoundTrip.Statement (.crcInit) := by
  intro _ _; rfl

theorem RoundTrip.crcByte (b : Byte) : RoundTrip.Statement (.crcByte b) := by
  intro _ _; rfl

theorem RoundTrip.crcBit (d : Bool) : RoundTrip.Statement (.crcBit d) := by
  intro _ _; rfl

theorem RoundTrip.crcRead : RoundTrip.Statement (.crcRead) := by
  intro _ _; rfl

theorem RoundTrip.reservedCmd (low : BitVec 3) : RoundTrip.Statement (.reservedCmd low) := by
  have key : ∀ low : BitVec 3, decode (encode Config.rawTest (.reservedCmd low)) = .ok (.reservedCmd low) := by decide
  exact fun _ _ => key low

theorem RoundTrip.lcEnc (n : BitVec 4) : RoundTrip.Statement (.lcEnc n) := by
  intro _ _; rfl

theorem RoundTrip.lcDec (c : BitVec 5) : RoundTrip.Statement (.lcDec c) := by
  intro _ _; rfl

theorem RoundTrip.wireEnc (b : Byte) : RoundTrip.Statement (.wireEnc b) := by
  intro _ _; rfl

theorem RoundTrip.wireDec (s : BitVec 10) : RoundTrip.Statement (.wireDec s) := by
  intro _ _; rfl

theorem RoundTrip.crc16 (data : List Byte) (length : Nat) : RoundTrip.Statement (.crc16 data length) := by
  intro _ _; rfl

theorem RoundTrip.wireRaw (b : Byte) : RoundTrip.Statement (.wireRaw b) := by
  intro _ _
  simp only [encode, decode, decodeHost]
  have h : ∀ b : Byte, (0b1#1 ++ b).getLsbD 8 = true ∧ (0b1#1 ++ b).extractLsb' 0 8 = b := by decide
  simp [h b]

theorem RoundTrip.wireBalanced (h l : BitVec 5) : RoundTrip.Statement (.wireBalanced h l) := by
  intro _ _
  have top : (0b1#1 ++ h ++ l).getLsbD 10 = true := append_top (0b1#1) h l
  have hi : (0b1#1 ++ h ++ l).extractLsb' 5 5 = h := append_mid (0b1#1) h l
  have lo : (0b1#1 ++ h ++ l).extractLsb' 0 5 = l := append_low (0b1#1 ++ h) l
  simp only [encode, decode, decodeHost, top, hi, lo, if_true]

theorem RoundTrip.wireLeadout : RoundTrip.Statement (.wireLeadout) := by
  intro cfg _; cases h : cfg.coding <;> simp [encode, h] <;> decide

theorem RoundTrip.lc5_0 : RoundTrip.Statement (.lc5_0) := by
  intro _ _; rfl

theorem RoundTrip.lc5_1 : RoundTrip.Statement (.lc5_1) := by
  intro _ _; rfl

theorem RoundTrip.lc5_2 : RoundTrip.Statement (.lc5_2) := by
  intro _ _; rfl

theorem RoundTrip.lc5_3 : RoundTrip.Statement (.lc5_3) := by
  intro _ _; rfl

theorem RoundTrip.lc5_4 : RoundTrip.Statement (.lc5_4) := by
  intro _ _; rfl

theorem RoundTrip.lc5_5 : RoundTrip.Statement (.lc5_5) := by
  intro _ _; rfl

theorem RoundTrip.lc5_6 : RoundTrip.Statement (.lc5_6) := by
  intro _ _; rfl

theorem RoundTrip.lc5_7 : RoundTrip.Statement (.lc5_7) := by
  intro _ _; rfl

theorem RoundTrip.lc5_8 : RoundTrip.Statement (.lc5_8) := by
  intro _ _; rfl

theorem RoundTrip.lc5_9 : RoundTrip.Statement (.lc5_9) := by
  intro _ _; rfl

theorem RoundTrip.lc5_A : RoundTrip.Statement (.lc5_A) := by
  intro _ _; rfl

theorem RoundTrip.lc5_B : RoundTrip.Statement (.lc5_B) := by
  intro _ _; rfl

theorem RoundTrip.lc5_C : RoundTrip.Statement (.lc5_C) := by
  intro _ _; rfl

theorem RoundTrip.lc5_D : RoundTrip.Statement (.lc5_D) := by
  intro _ _; rfl

theorem RoundTrip.lc5_E : RoundTrip.Statement (.lc5_E) := by
  intro _ _; rfl

theorem RoundTrip.lc5_F : RoundTrip.Statement (.lc5_F) := by
  intro _ _; rfl

theorem RoundTrip.lc5Invalid (c : BitVec 5) : RoundTrip.Statement (.lc5Invalid c) := by
  intro _ h
  simp only [Instr.wellFormed, decide_eq_true_eq] at h
  have key : ∀ c : BitVec 5, c ∉ codeSet → decodeSymbol c = .lc5Invalid c := by decide
  simp [encode, decode, decodeHost, key c h]

end Sys2Proof.Laws
end

