-- ==== Sys2Proof/Laws/Step.lean ====
section
/-! SUPPORT. What a step, a turn, a clock edge and a run can do. -/

namespace Sys2Proof.Machine

open Sys2Proof

variable {s t : State}

theorem step_nil (h : s.schedule = []) : step s = .next s := by simp only [step, h]

theorem step_cons {u : Turn} {ts : List Turn} (h : s.schedule = u :: ts) :
    step s = takeTurn u { s with schedule := ts } := by simp only [step, h]

/-! ### The tick -/

theorem runTick_enabled (b : Bool) (h : s.tickEnable = true) (h' : s.spin = none) :
    runTick b s = exec (decodeTick s.key) (tickEntry b s) := by
  simp [runTick, tickMayRun, h, h']

theorem runTick_masked (b : Bool) (h : s.tickEnable = false ∨ s.spin ≠ none) : runTick b s = .next s := by
  rcases h with h | h
  · simp [runTick, tickMayRun, h]
  · cases hs : s.spin with
    | none => exact absurd hs h
    | some n => simp [runTick, tickMayRun, hs]

/-- A firing of the tick source ran the rule of the key, or it was masked and changed nothing. -/
theorem runTick_cases {b : Bool} (h : runTick b s = .next t) :
    s.tickEnable = true ∧ s.spin = none ∧ exec (decodeTick s.key) (tickEntry b s) = .next t ∨
    (s.tickEnable = false ∨ s.spin ≠ none) ∧ t = s := by
  by_cases he : s.tickEnable = true ∧ s.spin = none
  · rw [runTick_enabled b he.1 he.2] at h
    exact .inl ⟨he.1, he.2, h⟩
  · have hm : s.tickEnable = false ∨ s.spin ≠ none := by
      cases ht : s.tickEnable
      · exact .inl rfl
      · exact .inr fun hs => he ⟨ht, hs⟩
    rw [runTick_masked b hm] at h
    injection h with h
    exact .inr ⟨hm, h.symm⟩

/-! ### The host's turn -/

theorem runCall_code {c : HostCode} {i : Instr} (h : decodeHost c = .ok i) : runCall (.code c) s = exec i s := by
  simp only [runCall, h]

/-- What the host agent's turn is: passed over during a spin, the next step of a call in progress, nothing, or the oldest
waiting call. -/
theorem hostTurn_cases (s : State) :
    s.spin ≠ none ∧ hostTurn s = .next s ∨
    s.spin = none ∧ s.recvActive = true ∧ hostTurn s = recvPoll s ∨
    s.spin = none ∧ s.recvActive = false ∧ s.receivePending = true ∧ hostTurn s = exec .receive s ∨
    s.spin = none ∧ s.recvActive = false ∧ s.receivePending = false ∧
      (s.hostQueue = [] ∧ hostTurn s = .next s ∨
        ∃ c q, s.hostQueue = c :: q ∧ hostTurn s = runCall c { s with hostQueue := q }) := by
  cases hs : s.spin with
  | some n => exact .inl ⟨by simp, by simp [hostTurn, hs]⟩
  | none =>
    refine .inr ?_
    cases ha : s.recvActive with
    | true => exact .inl ⟨rfl, rfl, by simp [hostTurn, hs, ha]⟩
    | false =>
      refine .inr ?_
      cases hp : s.receivePending with
      | true => exact .inl ⟨rfl, rfl, rfl, by simp [hostTurn, hs, ha, hp]⟩
      | false =>
        refine .inr ⟨rfl, rfl, rfl, ?_⟩
        cases hq : s.hostQueue with
        | nil => exact .inl ⟨rfl, by simp [hostTurn, hs, ha, hp, hq]⟩
        | cons c q => exact .inr ⟨c, q, rfl, by simp [hostTurn, hs, ha, hp, hq]⟩

/-! ### RECV -/

/-- What RECV makes of a return changes at most the return and whether RECV goes on. -/
theorem recvJudge_cases (before : HostReturn) (s : State) :
    ∃ (r : HostReturn) (a : Bool), recvJudge before s = { s with hostReturn := r, recvActive := a } := by
  unfold recvJudge
  split
  · split
    · exact ⟨_, _, rfl⟩
    · split
      · exact ⟨_, s.recvActive, rfl⟩
      · split
        · exact ⟨_, _, rfl⟩
        · exact ⟨_, _, rfl⟩
  · exact ⟨_, _, rfl⟩

/-- A step of RECV is a step of its RECEIVE, judged once that has returned. -/
theorem recvPoll_cases (h : recvPoll s = .next t) :
    ∃ u, execReceive s = .next u ∧
      (u.receivePending = true ∧ t = u ∨ u.receivePending = false ∧ t = recvJudge s.hostReturn u) := by
  unfold recvPoll at h
  split at h
  · rename_i u hu
    injection h with h
    refine ⟨u, hu, ?_⟩
    cases hp : u.receivePending with
    | true => rw [hp] at h; exact .inl ⟨rfl, h.symm⟩
    | false => rw [hp] at h; exact .inr ⟨rfl, h.symm⟩
  · rename_i o hne
    exact absurd h (by cases o <;> simp_all)

/-! ### The clock edge -/

/-- The end of a spin writes the counter and nothing else. -/
theorem endSpin_eq (s : State) : ∃ n, endSpin s = { s with spin := none, tcnt := n } := ⟨_, rfl⟩

theorem endSpin_tcnt_lt (s : State) : (endSpin s).tcnt < 2 ^ s.cfg.cmpWidth :=
  Nat.mod_lt _ (Nat.two_pow_pos _)

/-- The end of a spin places the counter `PHASE_DELAY` before the compare value's next match (R316). -/
theorem endSpin_tcnt {d : Nat} (hd : phaseDelayOf s.cfg.phaseDelay s.compare = d) (h1 : 1 ≤ d)
    (h2 : d ≤ s.compare + 1) (hc : s.compare < 2 ^ s.cfg.cmpWidth) :
    (endSpin s).tcnt = s.compare + 1 - d := by
  simp only [endSpin, hd]
  generalize 2 ^ s.cfg.cmpWidth = m at *
  rcases Nat.lt_or_ge d m with hlt | hge
  · rw [Nat.mod_eq_of_lt hlt, show s.compare + 1 + (m - d) = (s.compare + 1 - d) + m by omega,
      Nat.add_mod_right, Nat.mod_eq_of_lt (by omega)]
  · have : d = m := by omega
    subst this
    rw [Nat.mod_self, Nat.sub_zero, Nat.add_mod_right]
    have : s.compare + 1 = d := by omega
    rw [this, Nat.mod_self, Nat.sub_self]

/-- A spinning clock edge goes on spinning or ends the spin. -/
theorem spinAt_cases (n : Nat) (s : State) :
    s.lineIn = true ∧ spinBoundReached s.cfg.spinMax s.compare n = false ∧
      spinAt n s = { s with spin := some n } ∨
    (s.lineIn = false ∨ spinBoundReached s.cfg.spinMax s.compare n = true) ∧ spinAt n s = endSpin s := by
  unfold spinAt
  cases hl : s.lineIn <;> cases hb : spinBoundReached s.cfg.spinMax s.compare n <;> simp

/-- What an edge of the prescaled clock does: a spin's step; nothing, stopped; a count; a firing; a waiting tick. -/
theorem clockEdge_cases (b : Bool) (s : State) :
    (∃ n, s.spin = some n ∧ clockEdge b s = .next (spinAt (n + 1) { s with lineIn := b })) ∨
    s.spin = none ∧ s.prescaler = .stopped ∧ clockEdge b s = .next { s with lineIn := b } ∨
    s.spin = none ∧ s.prescaler ≠ .stopped ∧ ¬ (s.tcnt = s.compare ∨ s.tickDue = true) ∧
      clockEdge b s = .next (countEdge { s with lineIn := b }) ∨
    s.spin = none ∧ s.prescaler ≠ .stopped ∧ (s.tcnt = s.compare ∨ s.tickDue = true) ∧ s.tickEnable = true ∧
      clockEdge b s = fireTick { countEdge { s with lineIn := b } with tickDue := false } ∨
    s.spin = none ∧ s.prescaler ≠ .stopped ∧ (s.tcnt = s.compare ∨ s.tickDue = true) ∧ s.tickEnable = false ∧
      clockEdge b s = .next { countEdge { s with lineIn := b } with tickDue := true } := by
  cases hs : s.spin with
  | some n => exact .inl ⟨n, rfl, by simp [clockEdge, hs]⟩
  | none =>
    refine .inr ?_
    by_cases hp : s.prescaler = .stopped
    · exact .inl ⟨rfl, hp, by simp [clockEdge, hs, hp]⟩
    · refine .inr ?_
      by_cases hd : s.tcnt = s.compare ∨ s.tickDue = true
      · refine .inr ?_
        cases ht : s.tickEnable with
        | true => exact .inl ⟨rfl, hp, hd, rfl, by simp [clockEdge, hs, hp, hd, ht, countEdge]⟩
        | false => exact .inr ⟨rfl, hp, hd, rfl, by simp [clockEdge, hs, hp, hd, ht, countEdge]⟩
      · exact .inl ⟨rfl, hp, hd, by simp [clockEdge, hs, hp, hd]⟩

/-! ### Runs -/

theorem ticks_add (b : Bool) (m n : Nat) (h : ticks b m s = .next t) : ticks b (m + n) s = ticks b n t := by
  induction m generalizing s with
  | zero => simp only [ticks] at h; injection h with h; rw [h, Nat.zero_add]
  | succ m ih =>
    rw [show m + 1 + n = (m + n) + 1 by omega]
    simp only [ticks] at h ⊢
    split at h
    · exact ih h
    · cases h
    · cases h

theorem alignedTicks_add (m n : Nat) {l l' : Links} (h : alignedTicks m l = .next l') :
    alignedTicks (m + n) l = alignedTicks n l' := by
  induction m generalizing l with
  | zero => simp only [alignedTicks] at h; injection h with h; rw [h, Nat.zero_add]
  | succ m ih =>
    rw [show m + 1 + n = (m + n) + 1 by omega]
    simp only [alignedTicks] at h ⊢
    split at h
    · exact ih h
    · cases h
    · cases h

theorem clockEdges_append (a c : List Bool) (h : clockEdges a s = .next t) :
    clockEdges (a ++ c) s = clockEdges c t := by
  induction a generalizing s with
  | nil => simp only [clockEdges] at h; injection h with h; rw [h, List.nil_append]
  | cons b a ih =>
    rw [List.cons_append]
    simp only [clockEdges] at h ⊢
    split at h
    · exact ih h
    · rename_i o hne
      exact absurd h (by cases o <;> simp_all)

theorem execAll_append (a c : List Instr) (h : execAll a s = .next t) : execAll (a ++ c) s = execAll c t := by
  induction a generalizing s with
  | nil => simp only [execAll] at h; injection h with h; rw [h, List.nil_append]
  | cons i a ih =>
    rw [List.cons_append]
    simp only [execAll] at h ⊢
    split at h
    · exact ih h
    · rename_i o hne
      exact absurd h (by cases o <;> simp_all)

end Sys2Proof.Machine
end

