-- ==== Sys2Proof/Tests/Slice0.lean ====
section
/-! SUPPORT. Tests of the model's own work. The expected values are those of spec/95_test_vectors.md (named V-…), of the
examples in the rules (named R…), or worked out by hand from the pseudocode of the rule named. Then, for every statement
with hypotheses, concrete states and operands that meet them. -/

namespace Sys2Proof.Tests

open Sys2Proof Sys2Proof.Machine

/-! ### Small states and readers -/

/-- Whether an outcome is a next state with a property. -/
def after (o : Host.Outcome State Fault Refusal) (p : State → Bool) : Bool :=
  match o with
  | .next t => p t
  | _ => false

def faults (o : Host.Outcome State Fault Refusal) : Bool :=
  match o with
  | .fault .unreachableState => true
  | _ => false

def refuses (r : Refusal) (o : Host.Outcome State Fault Refusal) : Bool :=
  match o with
  | .refused r' => r = r'
  | _ => false

theorem of_after {o : Host.Outcome State Fault Refusal} {p : State → Bool} (h : after o p = true) :
    ∃ t, o = .next t ∧ p t = true := by
  cases o with
  | next t => exact ⟨t, rfl, h⟩
  | _ => cases h

/-- Whether decoding gives an instruction. -/
def decodesTo (c : Code) (i : Instr) : Bool :=
  match decode c with
  | .ok j => i = j
  | .error _ => false

def rejects (c : Code) (e : DecodeError) : Bool :=
  match decode c with
  | .ok _ => false
  | .error e' => e = e'

/-- A link configured at 1000 ticks per second at 16 MHz (R231), in a state of its FSM with a countdown. -/
def link (cfg : Config) (dir : Dir) (st : LinkState) (timer : Nat) : State :=
  { State.resetWith cfg with
    dir := dir, st := st, bitTimer := timer, baud := 1000, prescaler := .div64, compare := 249, tickEnable := true }

def tx (st : LinkState) (timer : Nat) : State := link .rawTest .transmit st timer

def rx (st : LinkState) (timer : Nat) : State := link .rawTest .receive st timer

/-- A transmit link sending the one-byte frame `41`. -/
def sending (st : LinkState) (timer : Nat) : State :=
  { tx st timer with frameBuffer := [(0, 0x41)], payloadLength := 1 }

/-- A receive link holding the two-byte frame `00 FF` (V-CMD-14). -/
def holding : State := { rx .recv 1 with frameBuffer := [(1, 0xFF)], payloadLength := 2 }

def overwrite : Config := { Config.rawTest with recvOverwrite := true }

/-! ### Well-formedness refuses an ill-formed term for each of its checks -/

theorem test_wf_configure : Instr.wellFormed .rawTest (.configure 1000 .reserved) = false := by decide
theorem test_wf_transmit : Instr.wellFormed .rawTest (.transmit 2 [0x41]) = false := by decide
theorem test_wf_crc16 : Instr.wellFormed .rawTest (.crc16 [0x41] 2) = false := by decide
theorem test_wf_wireDec : Instr.wellFormed .rawTest (.wireDec 0x100) = false := by decide
theorem test_wf_lc5Invalid : Instr.wellFormed .rawTest (.lc5Invalid 0x04) = false := by decide

/-- At the edge of each check the term is well formed. -/
theorem test_wf_edges :
    Instr.wellFormed .rawTest (.configure 0 .none) = true ∧ Instr.wellFormed .rawTest (.transmit 1 [0x41]) = true ∧
    Instr.wellFormed .rawTest (.transmit 0 []) = true ∧
    Instr.wellFormed .rawTest (.transmit 41 (List.replicate 40 0)) = true ∧
    Instr.wellFormed .rawTest (.crc16 [0x41] 1) = true ∧ Instr.wellFormed .rawTest (.wireDec 0xFF) = true ∧
    Instr.wellFormed .balancedTest (.wireDec 0x3FF) = true ∧
    Instr.wellFormed .rawTest (.lc5Invalid 0x03) = true := by decide

/-! ### Decoding of words written out from 30_encoding.md (R91 to R104) -/

theorem test_decode_tx_keys :
    decodesTo (.tick 0b010000) .txReady ∧ decodesTo (.tick 0b010001) .txStart ∧
    decodesTo (.tick 0b010010) .txStrobe ∧ decodesTo (.tick 0b010011) .txSync ∧
    decodesTo (.tick 0b010100) .txPayload ∧ decodesTo (.tick 0b010101) .txData ∧
    decodesTo (.tick 0b010110) .txLeadout ∧ decodesTo (.tick 0b010111) .txUnreachableRecv ∧
    decodesTo (.tick 0b011000) (.txUnreachableHigh 0) ∧ decodesTo (.tick 0b011111) (.txUnreachableHigh 7) := by decide

theorem test_decode_rx_keys :
    decodesTo (.tick 0b100000) .rxReady ∧ decodesTo (.tick 0b100001) .rxStart ∧
    decodesTo (.tick 0b100010) .rxUnreachableStrobe ∧ decodesTo (.tick 0b100011) .rxSync ∧
    decodesTo (.tick 0b100100) .rxPayload ∧ decodesTo (.tick 0b100101) .rxData ∧
    decodesTo (.tick 0b100110) .rxLeadout ∧ decodesTo (.tick 0b100111) .rxRecv ∧
    decodesTo (.tick 0b101000) .rxError := by decide

theorem test_decode_rx_unreachable_keys :
    decodesTo (.tick 0b101001) .rxUnreachable9 ∧ decodesTo (.tick 0b101010) .rxUnreachable10 ∧
    decodesTo (.tick 0b101011) .rxUnreachable11 ∧ decodesTo (.tick 0b101100) .rxUnreachable12 ∧
    decodesTo (.tick 0b101101) .rxUnreachable13 ∧ decodesTo (.tick 0b101110) .rxUnreachable14 ∧
    decodesTo (.tick 0b101111) .rxUnreachable15 := by decide

theorem test_decode_other_keys :
    decodesTo (.tick 0b000000) (.idle 0) ∧ decodesTo (.tick 0b001001) (.idle 9) ∧
    decodesTo (.tick 0b110000) (.reservedDir3 0) ∧ decodesTo (.tick 0b111111) (.reservedDir3 15) := by decide

theorem test_decode_commands :
    decodesTo (.host (.cmd 0x0 { rate := 1000, direction := 1 })) (.configure 1000 .transmit) ∧
    decodesTo (.host (.cmd 0x0 { rate := 5, direction := 0 })) (.configure 5 .none) ∧
    decodesTo (.host (.cmd 0x0 { rate := 5, direction := 2 })) (.configure 5 .receive) ∧
    decodesTo (.host (.cmd 0x1 { length := 1, data := [0x41] })) (.transmit 1 [0x41]) ∧
    decodesTo (.host (.cmd 0x2 {})) .receive ∧ decodesTo (.host (.cmd 0x3 { addr := 0x0102 })) (.setAddress 0x0102) ∧
    decodesTo (.host (.cmd 0x4 {})) .crcInit ∧ decodesTo (.host (.cmd 0x5 { b := 0x41 })) (.crcByte 0x41) ∧
    decodesTo (.host (.cmd 0x6 { d := true })) (.crcBit true) ∧ decodesTo (.host (.cmd 0x7 {})) .crcRead ∧
    decodesTo (.host (.cmd 0x8 {})) (.reservedCmd 0) ∧ decodesTo (.host (.cmd 0xF {})) (.reservedCmd 7) := by decide

theorem test_decode_functions :
    decodesTo (.host (.lcEnc 0xA)) (.lcEnc 0xA) ∧ decodesTo (.host (.lcDec 0b11011)) (.lcDec 0b11011) ∧
    decodesTo (.host (.wireEnc 0x41)) (.wireEnc 0x41) ∧ decodesTo (.host (.wireDec 0x41)) (.wireDec 0x41) ∧
    decodesTo (.host (.crc16 [0x41] 1)) (.crc16 [0x41] 1) := by decide

theorem test_decode_wire_words :
    decodesTo (.host (.wire9 0b101000001)) (.wireRaw 0x41) ∧
    decodesTo (.host (.wire11 0b11001000101)) (.wireBalanced 0b10010 0b00101) ∧
    decodesTo (.host (.leadout9 0b100000000)) .wireLeadout ∧
    decodesTo (.host (.leadout11 0b10000000000)) .wireLeadout := by decide

theorem test_decode_symbols :
    decodesTo (.host (.symbol 0b00100)) .lc5_0 ∧ decodesTo (.host (.symbol 0b00101)) .lc5_1 ∧
    decodesTo (.host (.symbol 0b00110)) .lc5_2 ∧ decodesTo (.host (.symbol 0b01001)) .lc5_3 ∧
    decodesTo (.host (.symbol 0b01010)) .lc5_4 ∧ decodesTo (.host (.symbol 0b01011)) .lc5_5 ∧
    decodesTo (.host (.symbol 0b01100)) .lc5_6 ∧ decodesTo (.host (.symbol 0b01101)) .lc5_7 ∧
    decodesTo (.host (.symbol 0b10010)) .lc5_8 ∧ decodesTo (.host (.symbol 0b10011)) .lc5_9 ∧
    decodesTo (.host (.symbol 0b10100)) .lc5_A ∧ decodesTo (.host (.symbol 0b10101)) .lc5_B ∧
    decodesTo (.host (.symbol 0b10110)) .lc5_C ∧ decodesTo (.host (.symbol 0b11001)) .lc5_D ∧
    decodesTo (.host (.symbol 0b11010)) .lc5_E ∧ decodesTo (.host (.symbol 0b11011)) .lc5_F ∧
    decodesTo (.host (.symbol 0b00111)) (.lc5Invalid 0b00111) := by decide

theorem test_decode_rejects :
    rejects (.host (.cmd 0x0 { rate := 1000, direction := 3 })) .reservedDirection ∧
    rejects (.host (.wire9 0b001000001)) .noFramingBit ∧ rejects (.host (.wire11 0b00000000001)) .noFramingBit ∧
    rejects (.host (.leadout9 0b100000001)) .notLeadout ∧
    rejects (.host (.leadout11 0b10010000100)) .notLeadout := by decide

/-- The host's table words, one of each format, and where two formats share a number (log 8). -/
theorem test_table_words :
    decodeTableWord 8 0x12 = some .txStrobe ∧ decodeTableWord 8 0x20 = some .rxReady ∧
    decodeTableWord 8 0x05 = some (.crcByte 0) ∧ decodeTableWord 8 0x09 = some .lc5_3 ∧
    decodeTableWord 16 0x141 = some (.wireRaw 0x41) ∧ decodeTableWord 16 0x545 = some (.wireBalanced 0x0A 0x05) ∧
    decodeTableWord 16 0x1B = some .lc5_F ∧ decodeTableWord 16 0x03 = some (.lc5Invalid 3) := by decide

/-- A placed table word is what the next step runs, from reset: a tick key, and a command. -/
theorem test_place_tick :
    after (step (State.reset.withFetchWord 8 0x11)) (fun t => t.st = .strobe && t.bitTimer = 4 && t.activity) = true := by
  decide

theorem test_place_command :
    after (step (State.reset.withFetchWord 8 0x07))
      (fun t => t.hostReturn = { code := some .ok, info := .crc 0xFFFF }) = true := by decide

/-! ### Tick rules, one step each -/

/-- V-DSP-1. -/
theorem test_idle : after (runTick true (link .rawTest .none .ready 0))
    (fun t => t = { link .rawTest .none .ready 0 with lineIn := true }) = true := by decide

/-- V-DSP-3: any link with `st` from 9 to 15. -/
theorem test_idle_reserved : faults (runTick true (link .rawTest .none (.reserved 0) 0)) ∧
    faults (runTick true (link .rawTest .none (.reserved 6) 0)) := by decide

/-- R161, its example. -/
theorem test_txReady : after (exec .txReady { tx .ready 0 with lineOut := true, activity := true })
    (fun t => t = tx .ready 0) = true := by decide

/-- V-TX-1, tick 0. -/
theorem test_txStart : after (exec .txStart (tx .start 0))
    (fun t => t.st = .strobe && t.bitTimer = 4 && t.activity && !t.lineOut) = true := by decide

/-- V-TX-1, ticks 1 and 4. -/
theorem test_txStrobe : after (exec .txStrobe (tx .strobe 4))
    (fun t => t.st = .strobe && t.bitTimer = 3 && t.lineOut) = true := by decide
theorem test_txStrobe_last : after (exec .txStrobe { tx .strobe 1 with lineOut := true })
    (fun t => t.st = .sync && t.bitTimer = 4 && !t.lineOut) = true := by decide

/-- V-TX-1, ticks 6 and 8. -/
theorem test_txSync : after (exec .txSync (tx .sync 3))
    (fun t => t.st = .sync && t.bitTimer = 2 && t.lineOut) = true := by decide
theorem test_txSync_last : after (exec .txSync (tx .sync 1))
    (fun t => t.st = .payload && t.bitTimer = 10 && !t.lineOut) = true := by decide

/-- V-TX-1, ticks 17 and 18. -/
theorem test_txPayload : after (exec .txPayload (sending .payload 2))
    (fun t => t.st = .payload && t.bitTimer = 1 && t.lineOut) = true := by decide
theorem test_txPayload_last : after (exec .txPayload { sending .payload 1 with byteIndex := 5 })
    (fun t => t.st = .data && t.bitTimer = 10 && t.byteIndex = 0 && !t.lineOut) = true := by decide

/-- V-TX-1, ticks 21 and 28. -/
theorem test_txData : after (exec .txData (sending .data 8))
    (fun t => t.st = .data && t.bitTimer = 7 && t.lineOut) = true := by decide
theorem test_txData_last : after (exec .txData (sending .data 1))
    (fun t => t.st = .leadout && t.bitTimer = 10 && t.byteIndex = 1 && !t.lineOut) = true := by decide

/-- V-TX-1, ticks 29 and 38. -/
theorem test_txLeadout : after (exec .txLeadout (sending .leadout 10))
    (fun t => t.st = .leadout && t.bitTimer = 9 && t.lineOut) = true := by decide
theorem test_txLeadout_last : after (exec .txLeadout { sending .leadout 1 with activity := true })
    (fun t => t.st = .ready && t.bitTimer = 0 && t.activity && !t.lineOut) = true := by decide

/-- V-DSP-3. -/
theorem test_unreachable : faults (exec .txUnreachableRecv (tx .recv 1)) ∧
    faults (exec (.txUnreachableHigh 0) (tx .error 1)) ∧ faults (exec .rxUnreachableStrobe (rx .strobe 1)) ∧
    faults (exec .rxUnreachable9 (rx (.reserved 0) 1)) ∧ faults (exec (.reservedDir3 0) (link .rawTest .reserved .ready 0)) := by
  decide

/-- R191, its example. -/
theorem test_rxStart : after (exec .rxStart { rx .start 0 with lockCount := 3, activity := true })
    (fun t => t.st = .ready && t.lockCount = 0 && !t.activity) = true := by decide

/-- V-TX-1, ticks 6 and 7. -/
theorem test_rxReady_count : after (runTick true { rx .ready 0 with lockCount := 1 })
    (fun t => t.st = .ready && t.lockCount = 2) = true := by decide
theorem test_rxReady_lock : after (runTick false { rx .ready 0 with lockCount := 2 })
    (fun t => t.st = .sync && t.lockCount = 0 && t.bitTimer = 1) = true := by decide

/-- V-TX-1, tick 8. -/
theorem test_rxSync : after (runTick true (rx .sync 1))
    (fun t => t.st = .payload && t.bitTimer = 10 && t.activity) = true := by decide

/-- V-TX-1, tick 17, and R196, its second example: the count 41 enters ERROR. -/
theorem test_rxPayload : after (runTick true (rx .payload 2))
    (fun t => t.st = .payload && t.shiftReg = 0x01 && t.bitTimer = 1) = true := by decide
theorem test_rxPayload_error : after (runTick false { rx .payload 1 with shiftReg := 0x29, activity := true })
    (fun t => t.st = .error && t.bitTimer = 1 && !t.activity && t.payloadLength = 0) = true := by decide

/-- V-TX-1, ticks 19 and 28. -/
theorem test_rxData : after (runTick true { rx .data 10 with shiftReg := 1, payloadLength := 1 })
    (fun t => t.shiftReg = 0 && t.phaseReq && t.bitTimer = 9) = true := by decide
theorem test_rxData_last : after (runTick false { rx .data 1 with shiftReg := 0x41, payloadLength := 1 })
    (fun t => t.st = .leadout && t.frameBuffer = [(0, 0x41)] && t.byteIndex = 1 && t.bitTimer = 10) = true := by decide

/-- V-TX-1, tick 38. -/
theorem test_rxLeadout_last : after (runTick false { rx .leadout 1 with payloadLength := 1, activity := true })
    (fun t => t.st = .recv && t.bitTimer = 1 && !t.activity) = true := by decide

/-- R199: the frame is held, or with RECV_OVERWRITE a pending lock is taken. -/
theorem test_rxRecv : after (runTick true { holding with lockCount := 2 })
    (fun t => t = { holding with lockCount := 2, lineIn := true }) = true := by decide
theorem test_rxRecv_overwrite : after (runTick false { holding with cfg := overwrite, lockCount := 2 })
    (fun t => t.st = .sync && t.bitTimer = 1 && t.lockCount = 0) = true := by decide

/-- V-RX-25. -/
theorem test_rxError : after (runTick true (rx .error 1)) (fun t => t = { rx .error 1 with lineIn := true }) = true := by
  decide

/-! ### Commands, one step each -/

/-- R231, its example, and V-CMD-1. -/
theorem test_configure : after (exec (.configure 1000 .transmit) State.reset)
    (fun t => t.prescaler = .div64 && t.compare = 249 && t.st = .ready && t.tickEnable && t.dir = .transmit) = true := by
  decide
theorem test_configure_rates :
    after (exec (.configure 99 .transmit) State.reset)
      (fun t => t = { State.reset with hostReturn := .result .configError }) = true ∧
    after (exec (.configure 249 .receive) State.reset) (fun t => t.prescaler = .div1024 && t.compare = 61) = true ∧
    refuses .compareOutOfRange
      (exec (.configure 5000 .receive) (State.resetWith { Config.rawTest with fClk := 100000 })) = true ∧
    refuses .compareOutOfRange
      (exec (.configure 100 .receive) (State.resetWith { Config.rawTest with fClk := 32000000 })) = true := by decide

/-- V-CMD-8 at its last byte, and V-CMD-9. -/
theorem test_transmit : after (exec (.transmit 45 ((List.range 45).map (BitVec.ofNat 8))) { tx .ready 0 with tcnt := 7 })
    (fun t => t.payloadLength = 40 && t.frameBuffer.read 39 = 0x27 && t.st = .start && t.tcnt = 0) = true := by decide
/-- R35, R50, R234: TRANSMIT leaves `byteIndex`, that of a longer frame too (log 26). -/
theorem test_transmit_stale_index : after (exec (.transmit 1 [0x41]) { tx .ready 0 with byteIndex := 5, payloadLength := 5 })
    (fun t => t.byteIndex = 5 && t.payloadLength = 1) = true := by decide
theorem test_transmit_busy : after (exec (.transmit 1 [0xAA]) (sending .leadout 1))
    (fun t => t = { sending .leadout 1 with hostReturn := .result .busy }) = true := by decide

/-- V-CMD-14, and V-CMD-13. -/
theorem test_receive : after (exec .receive holding)
    (fun t => t.st = .start && t.hostReturn = { code := some .ok, info := .frame 2 [0x00, 0xFF] }) = true := by decide
theorem test_receive_error : after (exec .receive (rx .error 1))
    (fun t => t.st = .start && t.hostReturn = .result .frameError) = true := by decide

/-- R200, R303: the critical phase met in ERROR (log 27). V-RX-24: met in DATA, it hands out the mixture. -/
theorem test_receive_critical_error :
    after (exec .receive { holding with cfg := overwrite, st := .error, receivePending := true })
      (fun t => t.st = .start && !t.receivePending && t.hostReturn = .result .frameError) = true := by decide
theorem test_receive_critical_data :
    after (exec .receive { rx .data 5 with
        cfg := overwrite, frameBuffer := [(0, 0x42)], payloadLength := 2, receivePending := true })
      (fun t => t.st = .start && t.hostReturn = { code := some .ok, info := .frame 2 [0x42, 0x00] }) = true := by decide

/-- V-CMD-16, V-CMD-17. -/
theorem test_setAddress : after (exec (.setAddress 0x0102) State.reset) (fun t => t.ownAddress = 0x0102) = true := by decide
theorem test_reservedCmd : refuses .reservedCommand (exec (.reservedCmd 3) State.reset) = true := by decide

/-- V-CRC-20, V-CRC-17, V-CRC-18. -/
theorem test_crcInit : after (exec .crcInit { State.reset with crcAcc := 0x1234 }) (fun t => t.crcAcc = 0xFFFF) = true := by
  decide
theorem test_crcByte : after (exec (.crcByte 0x41) State.reset) (fun t => t.crcAcc = 0xB915) = true ∧
    after (exec (.crcByte 0x80) State.reset) (fun t => t.crcAcc = 0x7078) = true := by decide
theorem test_crcBit : after (exec (.crcBit false) State.reset) (fun t => t.crcAcc = 0xEFDF) = true ∧
    after (exec (.crcBit true) { State.reset with crcAcc := 0 }) (fun t => t.crcAcc = 0x1021) = true := by decide
theorem test_crcRead : after (exec .crcRead { State.reset with crcAcc := 0xB915 })
    (fun t => t.hostReturn.info = .crc 0xB915 && t.crcAcc = 0xB915) = true := by decide

/-! ### Functions, wire words and symbols -/

/-- V-CRC-5. -/
theorem test_crc16 : after (exec (.crc16 [0x31, 0x32, 0x33, 0x34, 0x35, 0x36, 0x37, 0x38, 0x39] 9) State.reset)
    (fun t => t.hostReturn.info = .crc 0x29B1 && t.crcAcc = 0xFFFF) = true := by decide +kernel

/-- V-LC-1, V-LC-2. -/
theorem test_lcEnc : after (exec (.lcEnc 0xA) State.reset) (fun t => t.hostReturn.info = .symbol 0x14) = true := by decide
theorem test_lcDec : after (exec (.lcDec 0b11011) State.reset) (fun t => t.hostReturn.info = .nibble 0xF) = true ∧
    after (exec (.lcDec 0b11111) State.reset) (fun t => t.hostReturn.info = .nibble 0) = true := by decide

/-- V-LC-4, V-LC-5. -/
theorem test_wireEnc : after (exec (.wireEnc 0xA5) State.reset) (fun t => t.hostReturn.info = .wireWord 0x1A5) = true ∧
    after (exec (.wireEnc 0xA5) (State.resetWith .balancedTest)) (fun t => t.hostReturn.info = .wireWord 0x68B) = true := by
  decide
theorem test_wireDec : after (exec (.wireDec 0b0101100101) (State.resetWith .balancedTest))
      (fun t => t.hostReturn.info = .byte 0x51) = true ∧
    after (exec (.wireDec 0b1111100101) (State.resetWith .balancedTest))
      (fun t => t.hostReturn.info = .byte 0x01) = true := by decide

/-- R91, R94, R95 with the levels of R96 (the bit strings of V-LC-4, then gap ticks). -/
theorem test_wireRaw : after (exec (.wireRaw 0x41) State.reset)
    (fun t => t.hostReturn.info =
      .slot 0x141 [true, false, true, false, false, false, false, false, true, false] 0x41) = true := by decide
theorem test_wireBalanced : after (exec (.wireBalanced 0x0A 0x05) (State.resetWith .balancedTest))
    (fun t => t.hostReturn.info =
      .slot 0x545 [true, false, true, false, true, false, false, false, true, false, true, false] 0x41) = true := by decide
theorem test_wireLeadout : after (exec .wireLeadout (State.resetWith .balancedTest))
    (fun t => t.hostReturn.info = .slot 0x400 (true :: List.replicate 11 false) 0x00) = true := by decide

/-- V-LC-2, the symbols of CODESET in order. -/
theorem test_symbols :
    [Instr.lc5_0, .lc5_1, .lc5_2, .lc5_3, .lc5_4, .lc5_5, .lc5_6, .lc5_7, .lc5_8, .lc5_9, .lc5_A, .lc5_B, .lc5_C,
      .lc5_D, .lc5_E, .lc5_F].zipIdx.all
      (fun p => after (exec p.1 State.reset) (fun t => t.hostReturn.info = .nibble (BitVec.ofNat 4 p.2))) = true ∧
    after (exec (.lc5Invalid 0x1F) State.reset) (fun t => t.hostReturn.info = .nibble 0) = true := by decide

/-! ### Transport and clock, one step each -/

/-- V-TR-2. -/
theorem test_send : after (send 0x0001 1 [0x41] { tx .ready 0 with ownAddress := 0x0002 })
    (fun t => t.payloadLength = 7 && t.frameBuffer.drain 7 = [0x01, 0x00, 0x02, 0x00, 0x41, 0xD8, 0x8D]) = true := by decide +kernel

/-- A receiver holding V-TR-2's frame. -/
def transportHeld (own : BitVec 16) : State :=
  { rx .recv 1 with
    frameBuffer := [(0, 0x01), (2, 0x02), (4, 0x41), (5, 0xD8), (6, 0x8D)], payloadLength := 7, ownAddress := own }

/-- V-TR-4. -/
theorem test_recv : after (recvStart (transportHeld 0x0001))
    (fun t => t.st = .start && !t.recvActive &&
      t.hostReturn = { code := some .ok, info := .message 0x0002 [0x41] 1 }) = true := by decide +kernel

/-- V-TR-5: filtered, and RECV goes on polling. -/
theorem test_recv_filtered : after (recvStart (transportHeld 0x0003))
    (fun t => t.st = .start && t.recvActive && t.hostReturn = { code := none, info := .nothing }) = true := by decide

/-- V-CLK-1 at the compare value. -/
theorem test_clock_fires : after (clockEdge false { tx .start 0 with tcnt := 249 })
    (fun t => t.tcnt = 0 && t.st = .strobe) = true := by decide

/-- V-CLK-3: the falling edge 40 clocks into the spin. -/
theorem test_clock_spin_ends : after (clockEdge false { rx .payload 9 with spin := some 39, tcnt := 0 })
    (fun t => t.spin = none && t.tcnt = 125) = true := by decide

/-! ### Witnesses: states and operands that meet the hypotheses of each statement, clause by clause -/

theorem witness_DecodeOfEncodeIsTheInstruction :
    ∃ (cfg : Config) (i : Instr), i.wellFormed cfg = true := ⟨.balancedTest, .wireDec 0x3FF, by decide⟩

theorem valid_rawTest : Config.rawTest.Valid := by decide
theorem valid_balancedTest : Config.balancedTest.Valid := by decide
theorem valid_overwrite : overwrite.Valid := by decide

theorem witness_ResetMeetsTheInvariant : ∃ cfg : Config, cfg.Valid := ⟨_, valid_balancedTest⟩

/-- A receiver at the last tick of its only DATA slot, that tick being the next turn. -/
def midFrame : State :=
  { rx .data 1 with shiftReg := 0x41, payloadLength := 1, activity := true, schedule := [.tick false] }

theorem midFrame_inv : Inv midFrame where
  cfgValid := valid_rawTest
  bufferWf := by decide
  lengthBound := by decide
  indexBound := by decide
  indexInFrame := by decide
  indexAfterFrame := by decide
  timerInPhase := by
    intro m h
    have : m = 10 := by
      have h' : phaseTicks midFrame.cfg midFrame.dir midFrame.st = some 10 := by decide
      rw [h'] at h
      injection h with h
      exact h.symm
    subst this
    decide
  lockBound := by decide
  rxLengthPositive := by decide
  shiftWidth := by decide
  compareWidth := by decide
  tcntWidth := by decide
  baudLegal := by decide
  statesLegal := by decide
  enabledIffConfigured := by decide
  noTickWaits := by decide
  pendingOnRx := by decide

theorem witness_EveryStepKeepsTheInvariant : ∃ s t : State, Inv s ∧ step s = .next t := by
  obtain ⟨t, ht, -⟩ := of_after (o := step midFrame) (p := fun t => t.st = .leadout) (by decide)
  exact ⟨midFrame, t, midFrame_inv, ht⟩

theorem witness_NoStepChangesTheParameters : ∃ s t : State, step s = .next t := by
  obtain ⟨t, ht, -⟩ := of_after (o := step midFrame) (p := fun t => t.st = .leadout) (by decide)
  exact ⟨midFrame, t, ht⟩

/-- A program that CONFIGUREs the link and then takes a tick. -/
theorem witness_EveryRunFromResetIsSafe : ∃ (cfg : Config) (calls : List HostCall) (turns : List Turn) (n k : Nat),
    cfg.Valid ∧
      after (Host.Core.run Sys2Proof.core k (loaded cfg calls turns n)) (fun t => t.tickEnable && t.dir = .receive) = true :=
  ⟨.rawTest, [.code (.cmd 0x0 { rate := 1000, direction := 2 })], [.host, .tick true], 40, 2, valid_rawTest, by decide⟩

/-- One instruction and state for each register that some instruction changes. -/
theorem witness_OnlyTheListedInstructionsWriteEachRegister :
    (∃ i s, after (exec i s) (fun t => t.dir ≠ s.dir) = true) ∧
    (∃ i s, after (exec i s) (fun t => t.st ≠ s.st) = true) ∧
    (∃ i s, after (exec i s) (fun t => t.frameBuffer ≠ s.frameBuffer) = true) ∧
    (∃ i s, after (exec i s) (fun t => t.payloadLength ≠ s.payloadLength) = true) ∧
    (∃ i s, after (exec i s) (fun t => t.byteIndex ≠ s.byteIndex) = true) ∧
    (∃ i s, after (exec i s) (fun t => t.bitTimer ≠ s.bitTimer) = true) ∧
    (∃ i s, after (exec i s) (fun t => t.lineOut ≠ s.lineOut) = true) ∧
    (∃ i s, after (exec i s) (fun t => t.activity ≠ s.activity) = true) ∧
    (∃ i s, after (exec i s) (fun t => t.lockCount ≠ s.lockCount) = true) ∧
    (∃ i s, after (exec i s) (fun t => t.shiftReg ≠ s.shiftReg) = true) ∧
    (∃ i s, after (exec i s) (fun t => t.ownAddress ≠ s.ownAddress) = true) ∧
    (∃ i s, after (exec i s)
      (fun t => t.baud ≠ s.baud && t.prescaler ≠ s.prescaler && t.compare ≠ s.compare && t.tickEnable ≠ s.tickEnable) = true) ∧
    (∃ i s, after (exec i s) (fun t => t.tcnt ≠ s.tcnt) = true) ∧
    (∃ i s, after (exec i s) (fun t => t.phaseReq ≠ s.phaseReq) = true) ∧
    ∃ i s, after (exec i s) (fun t => t.crcAcc ≠ s.crcAcc) = true :=
  ⟨⟨.configure 1000 .transmit, State.reset, by decide⟩, ⟨.txStart, tx .start 0, by decide⟩,
    ⟨.transmit 1 [0x41], tx .ready 0, by decide⟩, ⟨.transmit 1 [0x41], tx .ready 0, by decide⟩,
    ⟨.txData, sending .data 1, by decide⟩, ⟨.txStart, tx .start 0, by decide⟩, ⟨.txStrobe, tx .strobe 4, by decide⟩,
    ⟨.txStart, tx .start 0, by decide⟩, ⟨.rxReady, { rx .ready 0 with lineIn := true }, by decide⟩,
    ⟨.rxData, { rx .data 9 with lineIn := true }, by decide⟩, ⟨.setAddress 1, State.reset, by decide⟩,
    ⟨.configure 1000 .transmit, State.reset, by decide⟩, ⟨.transmit 0 [], { tx .ready 0 with tcnt := 1 }, by decide⟩,
    ⟨.rxData, rx .data 10, by decide⟩, ⟨.crcBit true, State.reset, by decide⟩⟩

theorem witness_TickTurnRunsTheRuleOfTheKey :
    (∃ (s : State) (b : Bool) (ts : List Turn), s.schedule = .tick b :: ts ∧ s.tickEnable = true ∧ s.spin = none) ∧
    ∃ (s : State) (b : Bool) (ts : List Turn), s.schedule = .tick b :: ts ∧ s.tickEnable = false :=
  ⟨⟨midFrame, false, [], by decide⟩, ⟨{ State.reset with schedule := [.tick true] }, true, [], by decide⟩⟩

/-- A state whose next turn is the host's, with calls waiting. -/
def hostNext (s : State) (calls : List HostCall) : State := { s with schedule := [.host], hostQueue := calls }

/-- The host is free to issue its next call. -/
def HostFree (s : State) : Prop := s.spin = none ∧ s.recvActive = false ∧ s.receivePending = false

theorem witness_HostTurnRunsTheDecodedInstruction :
    (∃ (s : State) (ts : List Turn), s.schedule = .host :: ts ∧ s.spin = none ∧ s.recvActive = false ∧
      s.receivePending = true) ∧
    (∃ (s : State) (ts : List Turn), s.schedule = .host :: ts ∧ HostFree s ∧ s.hostQueue = []) ∧
    (∃ (s : State) (ts : List Turn) (h : HostCode) (q : List HostCall) (i : Instr),
      s.schedule = .host :: ts ∧ HostFree s ∧ s.hostQueue = .code h :: q ∧ decode (.host h) = .ok i) ∧
    (∃ (s : State) (ts : List Turn) (h : HostCode) (q : List HostCall) (e : DecodeError),
      s.schedule = .host :: ts ∧ HostFree s ∧ s.hostQueue = .code h :: q ∧ decode (.host h) = .error e) ∧
    (∃ (s : State) (ts : List Turn) (q : List HostCall),
      s.schedule = .host :: ts ∧ HostFree s ∧ s.hostQueue = .send 1 1 [0x41] :: q) ∧
    ∃ (s : State) (ts : List Turn) (q : List HostCall), s.schedule = .host :: ts ∧ HostFree s ∧ s.hostQueue = .recv :: q :=
  have free : HostFree State.reset := ⟨rfl, rfl, rfl⟩
  ⟨⟨{ hostNext (rx .recv 1) [] with cfg := overwrite, receivePending := true }, [], rfl, rfl, rfl, rfl⟩,
    ⟨hostNext State.reset [], [], rfl, free, rfl⟩,
    ⟨hostNext State.reset [.code (.cmd 0xF {})], [], .cmd 0xF {}, [], .reservedCmd 7, rfl, free, rfl, rfl⟩,
    ⟨hostNext State.reset [.code (.wire9 0)], [], .wire9 0, [], .noFramingBit, rfl, free, rfl, rfl⟩,
    ⟨hostNext State.reset [.send 1 1 [0x41]], [], [], rfl, free, rfl⟩, ⟨hostNext State.reset [.recv], [], [], rfl, free, rfl⟩⟩

theorem witness_IdleTickChangesNoRegister :
    (∃ s : State, s.st.code.toNat = 8) ∧
    ∃ s : State, s.dir = .none ∧ s.st.code.toNat < 9 ∧ s.tickEnable = true ∧ s.spin = none :=
  ⟨⟨rx .error 1, by decide⟩, link .rawTest .none .ready 0, by decide⟩

theorem witness_UnreachableTicksFault :
    (∃ s : State, s.dir = .none ∧ s.st.code.toNat = 9) ∧ (∃ k : BitVec 4, k.toNat = 7) ∧
    (∃ k : BitVec 4, k.toNat = 2) ∧ ∃ k : BitVec 4, k.toNat = 9 :=
  ⟨⟨link .rawTest .none (.reserved 0) 0, by decide⟩, ⟨7, by decide⟩, ⟨2, by decide⟩, ⟨9, by decide⟩⟩

theorem witness_BrokenCountersAndIndicesFault :
    (∃ s : State, s.bitTimer = 0) ∧ (∃ s : State, s.cfg.tbyte < s.bitTimer) ∧
    (∃ s : State, maxFrameSize ≤ s.byteIndex.toNat) ∧
    (∃ s : State, maxFrameSize ≤ s.byteIndex.toNat ∧ s.bitTimer = 1) ∧
    (∃ s : State, maxFrameSize < s.payloadLength.toNat ∧ s.receivePending = true ∧ s.st ≠ .error) ∧
    ∃ s : State, maxFrameSize < s.payloadLength.toNat ∧ s.receivePending = false ∧ s.dir = .receive ∧ s.st = .recv ∧
      s.cfg.recvOverwrite = false :=
  ⟨⟨tx .data 0, by decide⟩, ⟨tx .data 11, by decide⟩, ⟨{ tx .data 1 with byteIndex := 40 }, by decide⟩,
    ⟨{ rx .data 1 with byteIndex := 40 }, by decide⟩,
    ⟨{ rx .recv 1 with payloadLength := 41, receivePending := true }, by decide⟩,
    ⟨{ rx .recv 1 with payloadLength := 41 }, by decide⟩⟩

theorem witness_TxStrobeTick_TxSyncTick_RxSyncTick :
    (∃ s : State, 2 ≤ s.bitTimer) ∧ ∃ s : State, s.bitTimer = 1 := ⟨⟨tx .strobe 2, by decide⟩, ⟨tx .strobe 1, by decide⟩⟩

theorem witness_TxPayloadTick_TxLeadoutTick :
    (∃ s : State, 2 ≤ s.bitTimer ∧ s.bitTimer ≤ s.cfg.tbyte) ∧ ∃ s : State, s.bitTimer = 1 ∧ 1 ≤ s.cfg.tbyte :=
  ⟨⟨sending .payload 10, by decide⟩, ⟨sending .payload 1, by decide⟩⟩

theorem witness_TxDataTick :
    (∃ s : State, s.st = .data ∧ s.byteIndex.toNat < maxFrameSize ∧ 2 ≤ s.bitTimer ∧ s.bitTimer ≤ s.cfg.tbyte) ∧
    ∃ s : State, s.st = .data ∧ s.byteIndex.toNat < maxFrameSize ∧ s.bitTimer = 1 ∧ 1 ≤ s.cfg.tbyte :=
  ⟨⟨{ sending .data 2 with byteIndex := 39 }, by decide⟩, ⟨{ sending .data 1 with byteIndex := 39 }, by decide⟩⟩

theorem witness_RxReadyTick :
    (∃ s : State, s.lineIn = true) ∧ (∃ s : State, s.lineIn = false ∧ s.lockCount = s.cfg.nSync / 2) ∧
    ∃ s : State, s.lineIn = false ∧ s.lockCount ≠ s.cfg.nSync / 2 :=
  ⟨⟨{ rx .ready 0 with lineIn := true }, by decide⟩, ⟨{ rx .ready 0 with lockCount := 2 }, by decide⟩,
    ⟨{ rx .ready 0 with lockCount := 3 }, by decide⟩⟩

/-- The clauses of `SlotTicks`, at the edges of their ranges. -/
theorem witness_SlotTicks :
    (∃ s : State, s.cfg.Valid ∧ 2 ≤ s.bitTimer ∧ s.bitTimer ≤ s.cfg.tbyte ∧ s.cfg.tbyte - s.bitTimer = 0) ∧
    (∃ s : State, s.cfg.Valid ∧ 2 ≤ s.bitTimer ∧ s.bitTimer ≤ s.cfg.tbyte ∧ s.cfg.tbyte - s.bitTimer = 1) ∧
    (∃ s : State, s.cfg.Valid ∧ 2 ≤ s.bitTimer ∧ s.bitTimer ≤ s.cfg.tbyte ∧
      s.cfg.tbyte - s.bitTimer = s.cfg.coding.wireLength - 1) ∧
    ∃ s : State, s.cfg.Valid ∧ 2 ≤ s.bitTimer ∧ s.bitTimer ≤ s.cfg.tbyte ∧
      s.cfg.coding.wireLength ≤ s.cfg.tbyte - s.bitTimer :=
  ⟨⟨rx .payload 10, valid_rawTest, by decide⟩, ⟨rx .payload 9, valid_rawTest, by decide⟩,
    ⟨rx .payload 2, valid_rawTest, by decide⟩,
    ⟨link { Config.rawTest with tbyte := 11 } .receive .payload 2, by decide, by decide⟩⟩

theorem witness_RxPayloadTick :
    (∃ s : State, s.cfg.Valid ∧ s.bitTimer = 1 ∧ (wireDecode s.cfg (lastShift s)).toNat = 1) ∧
    (∃ s : State, s.cfg.Valid ∧ s.bitTimer = 1 ∧ (wireDecode s.cfg (lastShift s)).toNat = maxFrameSize) ∧
    (∃ s : State, s.cfg.Valid ∧ s.bitTimer = 1 ∧ (wireDecode s.cfg (lastShift s)).toNat = 0) ∧
    ∃ s : State, s.cfg.Valid ∧ s.bitTimer = 1 ∧ maxFrameSize < (wireDecode s.cfg (lastShift s)).toNat :=
  ⟨⟨{ rx .payload 1 with shiftReg := 1 }, valid_rawTest, by decide⟩,
    ⟨{ rx .payload 1 with shiftReg := 40 }, valid_rawTest, by decide⟩, ⟨rx .payload 1, valid_rawTest, by decide⟩,
    ⟨{ rx .payload 1 with shiftReg := 41 }, valid_rawTest, by decide⟩⟩

theorem witness_RxDataTick :
    ∃ s : State, s.cfg.Valid ∧ s.frameBuffer.wf = true ∧ s.bitTimer = 1 ∧ s.st = .data ∧
      s.byteIndex.toNat < maxFrameSize := ⟨{ rx .data 1 with byteIndex := 39 }, valid_rawTest, by decide⟩

theorem witness_RxLeadoutTick : ∃ s : State, s.cfg.Valid ∧ s.bitTimer = 1 := ⟨rx .leadout 1, valid_rawTest, by decide⟩

theorem witness_RxRecvAndErrorTicks :
    (∃ s : State, s.cfg.recvOverwrite = false) ∧ (∃ s : State, s.cfg.recvOverwrite = true ∧ s.lineIn = true) ∧
    (∃ s : State, s.cfg.recvOverwrite = true ∧ s.lineIn = false ∧ s.lockCount = s.cfg.nSync / 2) ∧
    ∃ s : State, s.cfg.recvOverwrite = true ∧ s.lineIn = false ∧ s.lockCount ≠ s.cfg.nSync / 2 :=
  ⟨⟨holding, by decide⟩, ⟨{ holding with cfg := overwrite, lineIn := true }, by decide⟩,
    ⟨{ holding with cfg := overwrite, lockCount := 2 }, by decide⟩, ⟨{ holding with cfg := overwrite }, by decide⟩⟩

theorem witness_TxTicksNeverReadTheLine :
    ∃ (i : Instr) (s t : State), i.isTxTick = true ∧ exec i s = .next t := by
  obtain ⟨t, ht, -⟩ := of_after (o := exec .txData (sending .data 1)) (p := fun t => t.st = .leadout) (by decide)
  exact ⟨.txData, _, t, by decide, ht⟩

theorem witness_TicksIgnorePhaseReq :
    ∃ (i : Instr) (s t : State), i.isRxTick = true ∧ exec i s = .next t := by
  obtain ⟨t, ht, -⟩ := of_after (o := exec .rxData (rx .data 10)) (p := fun t => t.phaseReq) (by decide)
  exact ⟨.rxData, _, t, by decide, ht⟩

/-- ERROR left by a RECEIVE's critical phase, by a RECEIVE, and by a CONFIGURE. -/
theorem witness_ErrorIsLeftOnlyByReceiveOrConfigure :
    (∃ s t : State, s.dir = .receive ∧ s.st = .error ∧ s.receivePending = true ∧ step s = .next t ∧ t.st = .start) ∧
    (∃ s t : State, s.dir = .receive ∧ s.st = .error ∧ s.receivePending = false ∧ step s = .next t ∧ t.st = .start) ∧
    ∃ s t : State, s.dir = .receive ∧ s.st = .error ∧ s.receivePending = false ∧ step s = .next t ∧ t.st = .ready := by
  refine ⟨?_, ?_, ?_⟩
  · obtain ⟨t, ht, hp⟩ :=
      of_after (o := step { rx .error 1 with cfg := overwrite, receivePending := true, schedule := [.host] })
        (p := fun t => t.st = .start) (by decide)
    exact ⟨_, t, rfl, rfl, rfl, ht, by simpa using hp⟩
  · obtain ⟨t, ht, hp⟩ :=
      of_after (o := step { rx .error 1 with schedule := [.host], hostQueue := [.code (.cmd 0x2 {})] })
        (p := fun t => t.st = .start) (by decide)
    exact ⟨_, t, rfl, rfl, rfl, ht, by simpa using hp⟩
  · obtain ⟨t, ht, hp⟩ :=
      of_after (o := step { rx .error 1 with
          schedule := [.host], hostQueue := [.code (.cmd 0x0 { rate := 1000, direction := 2 })] })
        (p := fun t => t.st = .ready) (by decide)
    exact ⟨_, t, rfl, rfl, rfl, ht, by simpa using hp⟩

/-- Both sides of each edge of the rate and of the compare value's width, and both refusals (R233, V-CMD-3). -/
theorem witness_ConfigureFollowsItsRule :
    (∃ d : Dir, d ≠ .reserved) ∧ ((99 : Nat) < 100 ∧ 5001 > (5000 : Nat)) ∧
    (∃ c : Config, 1 ≤ c.fClk / 1024 / 100 ∧ c.fClk / 1024 / 100 - 1 < 2 ^ c.cmpWidth) ∧
    (∃ c : Config, 1 ≤ c.fClk / 64 / 5000 ∧ c.fClk / 64 / 5000 - 1 < 2 ^ c.cmpWidth) ∧
    (∃ c : Config, c.fClk / 64 / 5000 = 0) ∧ (∃ c : Config, c.fClk / 1024 / 100 - 1 = 2 ^ c.cmpWidth - 1) ∧
    ∃ c : Config, c.fClk / 1024 / 100 - 1 = 2 ^ c.cmpWidth :=
  ⟨⟨.receive, by decide⟩, by decide, ⟨.rawTest, by decide⟩, ⟨.rawTest, by decide⟩,
    ⟨{ Config.rawTest with fClk := 100000 }, by decide⟩, ⟨{ Config.rawTest with fClk := 26214400 }, by decide⟩,
    ⟨{ Config.rawTest with fClk := 26316800 }, by decide⟩⟩

theorem witness_TransmitFollowsItsRule :
    (∃ s : State, s.dir ≠ .transmit) ∧ (∃ s : State, s.dir = .transmit ∧ s.st ≠ .ready) ∧
    ∃ (s : State) (length : Nat) (data : List Byte), s.frameBuffer.wf = true ∧ s.dir = .transmit ∧ s.st = .ready ∧
      min length maxFrameSize ≤ data.length ∧ 40 < length :=
  ⟨⟨rx .ready 0, by decide⟩, ⟨tx .leadout 1, by decide⟩, ⟨tx .ready 0, 41, List.replicate 40 0, by decide⟩⟩

theorem witness_ReceiveFollowsItsRule :
    (∃ s : State, s.receivePending = false ∧ s.dir ≠ .receive) ∧
    (∃ s : State, s.receivePending = false ∧ s.dir = .receive ∧ s.st = .error) ∧
    (∃ s : State, s.receivePending = false ∧ s.dir = .receive ∧ s.st ≠ .error ∧ s.st ≠ .recv) ∧
    (∃ s : State, s.receivePending = false ∧ s.cfg.recvOverwrite = false ∧ s.dir = .receive ∧ s.st = .recv ∧
      s.payloadLength.toNat ≤ maxFrameSize ∧ maxFrameSize ≤ s.outCapacity) ∧
    (∃ s : State, s.receivePending = false ∧ s.cfg.recvOverwrite = true ∧ s.dir = .receive ∧ s.st = .recv) ∧
    (∃ s : State, s.receivePending = true ∧ s.st ≠ .error ∧ s.payloadLength.toNat ≤ maxFrameSize ∧
      maxFrameSize ≤ s.outCapacity) ∧
    ∃ s : State, s.receivePending = true ∧ s.st = .error :=
  ⟨⟨tx .ready 0, by decide⟩, ⟨rx .error 1, by decide⟩, ⟨rx .leadout 1, by decide⟩,
    ⟨{ holding with payloadLength := 40 }, by decide⟩, ⟨{ holding with cfg := overwrite }, by decide⟩,
    ⟨{ rx .sync 1 with cfg := overwrite, payloadLength := 40, receivePending := true }, by decide⟩,
    ⟨{ rx .error 1 with cfg := overwrite, receivePending := true }, by decide⟩⟩

theorem witness_ReservedCommandCodesRefused : ∃ code : BitVec 4, 8 ≤ code.toNat := ⟨8, by decide⟩

theorem witness_PreconditionViolationsAreRefused :
    (∃ (s : State) (n : Nat) (data : List Byte),
      s.dir = .transmit ∧ s.st = .ready ∧ data.length < min n maxFrameSize) ∧
    (∃ (n : Nat) (data : List Byte), data.length < n) ∧
    (∃ (s : State) (length : Nat) (data : List Byte), s.ownAddress ≠ 0 ∧ data.length < min length maxDataSize) ∧
    (∃ s : State, s.dir = .receive ∧ s.st = .recv ∧ s.cfg.recvOverwrite = false ∧ s.ownAddress ≠ 0 ∧
      s.payloadLength.toNat ≤ maxFrameSize ∧ s.outCapacity < maxFrameSize) ∧
    ∃ s : State, s.receivePending = true ∧ s.st = .sync ∧ s.spin = none ∧ s.recvActive = true ∧
      s.payloadLength.toNat ≤ maxFrameSize ∧ s.outCapacity < maxFrameSize :=
  ⟨⟨tx .ready 0, 50, List.replicate 39 0, by decide⟩, ⟨1, [], by decide⟩,
    ⟨{ tx .ready 0 with ownAddress := 1 }, 50, List.replicate 31 0, by decide⟩,
    ⟨{ holding with outCapacity := 39, ownAddress := 1 }, by decide⟩,
    ⟨{ rx .sync 1 with
        cfg := overwrite, payloadLength := 40, receivePending := true, recvActive := true, outCapacity := 39 },
      by decide⟩⟩

theorem witness_SingleBitFlipChangesTheCrc : ∃ (d : List Byte) (i k : Nat), i < d.length ∧ k < 8 :=
  ⟨[0x31], 0, 7, by decide⟩

theorem witness_LineCodeFunctionsAnswer :
    ascendingCode.Bijective ∧ (0x1B : BitVec 5) ∈ codeSet ∧ (0x1C : BitVec 5) ∉ codeSet ∧
    Config.rawTest.coding = .raw ∧ Config.balancedTest.coding = .balanced ∧
    (0xAF : Byte).toNat = 16 * (10 : Fin 16).val + (15 : Fin 16).val := by decide

theorem witness_LineCodeRoundTrip : ∃ (cfg : Config) (c : BitVec 5), cfg.Valid ∧ c ∉ codeSet :=
  ⟨.balancedTest, 0x00, valid_balancedTest, by decide⟩

/-- The descending assignment, another bijection onto CODESET. -/
def descendingCode : LineCode :=
  #v[0x1B, 0x1A, 0x19, 0x16, 0x15, 0x14, 0x13, 0x12, 0x0D, 0x0C, 0x0B, 0x0A, 0x09, 0x06, 0x05, 0x04]

theorem witness_SymbolRowsAnswerTheirNibble :
    (∃ s : State, s.cfg.lc.Bijective ∧ s.cfg.lc = ascendingCode) ∧
    ∃ s : State, s.cfg.lc.Bijective ∧ s.cfg.lc ≠ ascendingCode :=
  ⟨⟨State.reset, by decide⟩, ⟨State.resetWith { Config.rawTest with lc := descendingCode }, by decide⟩⟩

theorem witness_BalancedWordsHaveNoRunOfFive : ∃ lc : LineCode, lc.Bijective := ⟨ascendingCode, by decide⟩

theorem witness_ClockEdgeCountsAndFires :
    (∃ (s : State) (b : Bool) (ts : List Turn), s.schedule = .clock b :: ts) ∧
    (∃ s : State, s.spin = none ∧ s.prescaler = .stopped) ∧
    (∃ s : State, s.spin = none ∧ s.prescaler ≠ .stopped ∧ s.tickDue = false ∧ s.tcnt ≠ s.compare ∧
      s.tcnt + 1 < 2 ^ s.cfg.cmpWidth) ∧
    (∃ s : State, s.spin = none ∧ s.prescaler ≠ .stopped ∧ s.tcnt = s.compare ∧ s.tickEnable = false) ∧
    (∃ s : State, s.spin = none ∧ s.prescaler ≠ .stopped ∧ s.tcnt = s.compare ∧ s.tickEnable = true ∧
      s.dir ≠ .receive) ∧
    (∃ s t : State, s.spin = none ∧ s.prescaler ≠ .stopped ∧ s.tcnt = s.compare ∧ s.tickEnable = true ∧
      runTick true { s with lineIn := true, tcnt := 0, tickDue := false } = .next t ∧ t.phaseReq = false) ∧
    ∃ s : State, s.spin = none ∧ s.prescaler ≠ .stopped ∧ s.tickDue = true ∧ s.tickEnable = true ∧
      s.dir ≠ .receive ∧ s.tcnt ≠ s.compare ∧ s.tcnt + 1 < 2 ^ s.cfg.cmpWidth := by
  refine ⟨⟨{ State.reset with schedule := [.clock true] }, true, [], rfl⟩, ⟨State.reset, by decide⟩,
    ⟨{ tx .ready 0 with tcnt := 248 }, by decide⟩,
    ⟨{ tx .ready 0 with tcnt := 249, tickEnable := false }, by decide⟩, ⟨{ tx .ready 0 with tcnt := 249 }, by decide⟩,
    ?_, ⟨{ tx .ready 0 with tickDue := true }, by decide⟩⟩
  obtain ⟨t, ht, hp⟩ := of_after
    (o := runTick true { rx .data 9 with tcnt := 0, lineIn := true, tickDue := false }) (p := fun t => !t.phaseReq)
    (by decide)
  exact ⟨{ rx .data 9 with tcnt := 249 }, t, rfl, by decide, rfl, rfl, ht, by simpa using hp⟩

theorem witness_TickPeriodIsComparePlusOne :
    ∃ (s : State) (levels : List Bool), s.spin = none ∧ s.tickDue = false ∧ s.prescaler ≠ .stopped ∧
      s.tickEnable = true ∧ s.compare < 2 ^ s.cfg.cmpWidth ∧ s.tcnt = 0 ∧ levels.length = s.compare :=
  ⟨{ rx .ready 0 with compare := 2 }, [true, false], by decide⟩

/-- A spin past its first clock, with a tick's and with the host's turn next. -/
theorem witness_PhaseCorrectionBeginsAtTheFramingTick_spinning :
    (∃ (s : State) (level : Bool) (ts : List Turn), s.spin = some 1 ∧ s.schedule = .tick level :: ts) ∧
    ∃ (s : State) (ts : List Turn), s.spin = some 1 ∧ s.schedule = .host :: ts :=
  ⟨⟨{ rx .payload 9 with spin := some 1, schedule := [.tick true] }, true, [], rfl, rfl⟩,
    ⟨{ rx .payload 9 with spin := some 1, schedule := [.host] }, [], rfl, rfl⟩⟩

theorem witness_PhaseCorrectionBeginsAtTheFramingTick :
    ∃ s t : State, s.spin = none ∧ s.prescaler ≠ .stopped ∧ s.tcnt = s.compare ∧ s.tickEnable = true ∧
      s.dir = .receive ∧ runTick true { s with lineIn := true, tcnt := 0, tickDue := false } = .next t ∧
      t.phaseReq = true ∧ spinBoundReached t.cfg.spinMax t.compare 0 = false := by
  obtain ⟨t, ht, hp⟩ := of_after
    (o := runTick true { rx .payload 10 with tcnt := 0, lineIn := true, tickDue := false })
    (p := fun t => t.phaseReq && !spinBoundReached t.cfg.spinMax t.compare 0) (by decide)
  exact ⟨{ rx .payload 10 with tcnt := 249 }, t, rfl, by decide, rfl, rfl, rfl, ht, by simpa using hp⟩

/-- The two ways in which the correction is made at once: a low line, and the bound 0. -/
theorem witness_PhaseCorrectionBeginsAtTheFramingTick_at_once :
    (∃ s t : State, s.spin = none ∧ s.prescaler ≠ .stopped ∧ s.tcnt = s.compare ∧ s.tickEnable = true ∧
      s.dir = .receive ∧ runTick false { s with lineIn := false, tcnt := 0, tickDue := false } = .next t ∧
      t.phaseReq = true) ∧
    ∃ c : Config, spinBoundReached c.spinMax 249 0 = true := by
  obtain ⟨t, ht, hp⟩ := of_after
    (o := runTick false { rx .payload 10 with tcnt := 0, lineIn := false, tickDue := false })
    (p := fun t => t.phaseReq) (by decide)
  exact ⟨⟨{ rx .payload 10 with tcnt := 249 }, t, rfl, by decide, rfl, rfl, rfl, ht, by simpa using hp⟩,
    ⟨{ Config.rawTest with spinMax := .clocks 0 }, by decide⟩⟩

/-- The two ends of the range of PHASE_DELAY, and a spin that goes on. -/
theorem witness_PhaseCorrectionPlacesTheNextTick :
    (∃ s : State, s.spin = some 123 ∧ s.compare < 2 ^ s.cfg.cmpWidth ∧
      spinBoundReached s.cfg.spinMax s.compare 124 = false) ∧
    (∃ s : State, s.spin = some 124 ∧ s.compare < 2 ^ s.cfg.cmpWidth ∧
      spinBoundReached s.cfg.spinMax s.compare 125 = true ∧ s.tickDue = false ∧ s.prescaler ≠ .stopped ∧
      s.tickEnable = true ∧ phaseDelayOf s.cfg.phaseDelay s.compare = 1) ∧
    ∃ s : State, s.spin = some 0 ∧ s.compare < 2 ^ s.cfg.cmpWidth ∧ s.tickDue = false ∧ s.prescaler ≠ .stopped ∧
      s.tickEnable = true ∧ phaseDelayOf s.cfg.phaseDelay s.compare = s.compare + 1 :=
  ⟨⟨{ rx .payload 9 with spin := some 123 }, by decide⟩,
    ⟨{ link { Config.rawTest with phaseDelay := .clocks 1 } .receive .payload 9 with spin := some 124 }, by decide⟩,
    ⟨{ link { Config.rawTest with phaseDelay := .clocks 250 } .receive .payload 9 with spin := some 0 }, by decide⟩⟩

theorem witness_UnboundedSpinHangsWhileTheLineIsHigh :
    ∃ (s : State) (n : Nat), s.cfg.spinMax = .infinite ∧ s.spin = some n :=
  ⟨{ link { Config.rawTest with spinMax := .infinite } .receive .payload 9 with spin := some 0 }, 0, by decide⟩

/-- A transmitter at the start of a frame of 40 bytes. -/
theorem witness_TxFrameLastsItsTicks_TxFrameDrivesItsWaveform :
    ∃ s : State, StartsAFrame s ∧ s.payloadLength.toNat = maxFrameSize ∧ 0 < frameTicks s.cfg s.payloadLength.toNat :=
  ⟨{ tx .start 0 with payloadLength := 40 }, ⟨valid_rawTest, by decide⟩, by decide⟩

theorem witness_LockstepRoundTrip :
    (∃ a b : State, StartsAFrame a ∧ SameLine b.cfg a.cfg ∧ b.dir = .receive ∧ b.tickEnable = true ∧ b.spin = none ∧
      b.frameBuffer.wf = true ∧ b.st = .start ∧ 1 ≤ a.payloadLength.toNat) ∧
    ∃ a b : State, StartsAFrame a ∧ SameLine b.cfg a.cfg ∧ b.dir = .receive ∧ b.tickEnable = true ∧ b.spin = none ∧
      b.frameBuffer.wf = true ∧ b.st = .ready ∧ b.lockCount ≠ b.cfg.nSync / 2 ∧ a.payloadLength.toNat = 0 :=
  ⟨⟨sending .start 0, { rx .start 0 with cfg := overwrite }, ⟨valid_rawTest, by decide⟩, ⟨rfl, rfl, rfl, rfl, rfl⟩,
      by decide⟩,
    ⟨tx .start 0, { rx .ready 0 with lockCount := 1 }, ⟨valid_rawTest, by decide⟩, ⟨rfl, rfl, rfl, rfl, rfl⟩, by decide⟩⟩

theorem witness_SendTransmitsTheFramedPayload :
    (∃ s : State, s.ownAddress = 0) ∧
    ∃ (s : State) (length : Nat) (data : List Byte), s.ownAddress ≠ 0 ∧ min length maxDataSize ≤ data.length ∧
      32 < length := ⟨⟨State.reset, by decide⟩, ⟨transportHeld 1, 33, List.replicate 32 0, by decide⟩⟩

theorem witness_RecvCallsReceive :
    (∃ s : State, s.ownAddress = 0) ∧
    (∃ s : State, s.ownAddress ≠ 0 ∧ s.receivePending = false ∧ s.dir ≠ .receive) ∧
    (∃ s : State, s.ownAddress ≠ 0 ∧ s.receivePending = false ∧ s.dir = .receive ∧ s.st = .error) ∧
    (∃ s : State, s.ownAddress ≠ 0 ∧ s.receivePending = false ∧ s.dir = .receive ∧ s.st ≠ .error ∧ s.st ≠ .recv) ∧
    (∃ s t : State, s.ownAddress ≠ 0 ∧ exec .receive { s with recvActive := true } = .next t ∧
      t.receivePending = true) ∧
    (∃ s t : State, s.ownAddress ≠ 0 ∧ s.st = .recv ∧ exec .receive { s with recvActive := true } = .next t ∧
      t.receivePending = false) ∧
    (∃ s t : State, s.spin = none ∧ s.recvActive = true ∧ exec .receive s = .next t ∧ t.receivePending = true) ∧
    ∃ s t : State, s.spin = none ∧ s.recvActive = true ∧ exec .receive s = .next t ∧ t.receivePending = false := by
  refine ⟨⟨State.reset, by decide⟩, ⟨{ tx .ready 0 with ownAddress := 1 }, by decide⟩,
    ⟨{ rx .error 1 with ownAddress := 1 }, by decide⟩, ⟨{ rx .ready 0 with ownAddress := 1 }, by decide⟩, ?_, ?_, ?_, ?_⟩
  · obtain ⟨t, ht, hp⟩ :=
      of_after (o := exec .receive { transportHeld 1 with cfg := overwrite, recvActive := true })
        (p := fun t => t.receivePending) (by decide)
    exact ⟨{ transportHeld 1 with cfg := overwrite }, t, by decide, ht, hp⟩
  · obtain ⟨t, ht, hp⟩ := of_after (o := exec .receive { transportHeld 1 with recvActive := true })
      (p := fun t => !t.receivePending) (by decide)
    exact ⟨transportHeld 1, t, by decide, rfl, ht, by simpa using hp⟩
  · obtain ⟨t, ht, hp⟩ :=
      of_after (o := exec .receive { transportHeld 1 with cfg := overwrite, recvActive := true })
        (p := fun t => t.receivePending) (by decide)
    exact ⟨_, t, rfl, rfl, ht, hp⟩
  · obtain ⟨t, ht, hp⟩ := of_after (o := exec .receive { transportHeld 1 with recvActive := true })
      (p := fun t => !t.receivePending) (by decide)
    exact ⟨_, t, rfl, rfl, ht, by simpa using hp⟩

/-- What RECEIVE returned, for a receiver with an address: 5 bytes, a frame for another, a corrupt one, a good one. -/
def returned (own : BitVec 16) (f : List Byte) : State :=
  { transportHeld own with hostReturn := { code := some .ok, info := .frame (BitVec.ofNat 6 f.length) f } }

theorem witness_RecvJudgesTheReceivedFrame :
    (∃ (s : State) (n : BitVec 6) (f : List Byte), f.length = n.toNat ∧
      s.hostReturn = { code := some .ok, info := .frame n f } ∧ n.toNat = 5) ∧
    (∃ (s : State) (n : BitVec 6) (f : List Byte), f.length = n.toNat ∧
      s.hostReturn = { code := some .ok, info := .frame n f } ∧ 6 ≤ n.toNat ∧
      ¬ (get16 s.cfg.hostOrder f 0 = s.ownAddress ∨ get16 s.cfg.hostOrder f 0 = 0xFFFF)) ∧
    (∃ (s : State) (n : BitVec 6) (f : List Byte), f.length = n.toNat ∧
      s.hostReturn = { code := some .ok, info := .frame n f } ∧ 6 ≤ n.toNat ∧
      get16 s.cfg.hostOrder f 0 = s.ownAddress ∧
      ¬ crc16 (f.take (n.toNat - 2)) = get16 s.cfg.hostOrder f (n.toNat - 2)) ∧
    ∃ (s : State) (n : BitVec 6) (f : List Byte), f.length = n.toNat ∧
      s.hostReturn = { code := some .ok, info := .frame n f } ∧ 6 ≤ n.toNat ∧
      get16 s.cfg.hostOrder f 0 = s.ownAddress ∧
      crc16 (f.take (n.toNat - 2)) = get16 s.cfg.hostOrder f (n.toNat - 2) :=
  ⟨⟨returned 1 [1, 0, 2, 0, 0x41], 5, _, rfl, rfl, by decide⟩,
    ⟨returned 3 [1, 0, 2, 0, 0x16, 0x94], 6, _, rfl, rfl, by decide⟩,
    ⟨returned 1 [1, 0, 2, 0, 0x16, 0x95], 6, _, rfl, rfl, by decide, by decide, by decide +kernel⟩,
    ⟨returned 1 [1, 0, 2, 0, 0x16, 0x94], 6, _, rfl, rfl, by decide, by decide, by decide +kernel⟩⟩

theorem witness_TransportFrameRoundTrip :
    ∃ (s : State) (dst src : BitVec 16) (payload : List Byte), payload.length = maxDataSize ∧ dst = s.ownAddress ∧
      s.hostReturn =
        { code := some .ok
          info := .frame (BitVec.ofNat 6 (6 + payload.length)) (transportFrame s.cfg.hostOrder dst src payload) } :=
  ⟨{ transportHeld 1 with
      hostReturn :=
        { code := some .ok
          info := .frame (BitVec.ofNat 6 (6 + (List.replicate 32 (0x41 : Byte)).length))
            (transportFrame .le 1 2 (List.replicate 32 0x41)) } }, 1, 2, List.replicate 32 0x41, rfl, rfl, rfl⟩

/-- The frame that SEND builds for node 1 from node 2, its byte `j` replaced, as RECEIVE returned it to node 1. -/
def corrupted (payload : List Byte) (j : Nat) (x : Byte) : State :=
  { transportHeld 1 with
    hostReturn :=
      { code := some .ok
        info := .frame (BitVec.ofNat 6 (6 + payload.length)) ((transportFrame .le 1 2 payload).set j x) } }

/-- The first and the last byte that may change, of an empty payload's frame and of a full one's. -/
theorem witness_CorruptedByteIsACrcError :
    ∀ c ∈ [(([] : List Byte), 2), ([], 5), (List.replicate 32 0x41, 2), (List.replicate 32 0x41, 37)],
      ∃ (s : State) (x : Byte), c.1.length ≤ maxDataSize ∧ 2 ≤ c.2 ∧ c.2 < 6 + c.1.length ∧
        x ≠ (transportFrame s.cfg.hostOrder s.ownAddress 2 c.1).getD c.2 0 ∧
        s.hostReturn =
          { code := some .ok
            info := .frame (BitVec.ofNat 6 (6 + c.1.length))
              ((transportFrame s.cfg.hostOrder s.ownAddress 2 c.1).set c.2 x) } := by
  intro c hc
  refine ⟨corrupted c.1 c.2 0xFF, 0xFF, ?_⟩
  simp only [List.mem_cons, List.not_mem_nil, or_false] at hc
  rcases hc with rfl | rfl | rfl | rfl <;> exact ⟨by decide, by decide, by decide, by decide +kernel, rfl⟩

theorem witness_NoStepFromTheInvariantFaults : ∃ s : State, Inv s := ⟨midFrame, midFrame_inv⟩

end Sys2Proof.Tests
end

section
/-! The parameters are configuration, not state (R9, R30; log 1): each shared operation, each instruction and each
agent's turn leaves `cfg` as it was, and so does a step. -/

namespace Sys2Proof.Machine

open Sys2Proof

variable {s t : State} {finish : State → Host.Outcome State Fault Refusal}

/-! ### The operations the tick rules share -/

@[simp] theorem lockStep_cfg (b : Bool) (s : State) : (lockStep b s).cfg = s.cfg := by
  cases b with
  | true => rw [lockStep_one]
  | false =>
    by_cases hl : s.lockCount = s.cfg.nSync / 2
    · rw [lockStep_lock hl]
    · rw [lockStep_reset hl]

@[simp] theorem rxSample_cfg (k : Nat) (b : Bool) (s : State) : (rxSample k b s).cfg = s.cfg := by
  obtain ⟨r, p, h⟩ := rxSample_cases k b s
  rw [h]

theorem countdown_cfg (hf : ∀ u t, finish u = .next t → t.cfg = u.cfg) (h : countdown finish s = .next t) :
    t.cfg = s.cfg := by
  obtain ⟨-, rfl⟩ | ⟨-, hfin⟩ := countdown_cases h
  · rfl
  · exact (hf _ _ hfin :)

theorem txSlot_cfg {w : BitVec 11} (hf : ∀ u t, finish u = .next t → t.cfg = u.cfg)
    (h : txSlot w finish s = .next t) : t.cfg = s.cfg := by
  obtain ⟨-, ⟨-, rfl⟩ | ⟨-, hfin⟩⟩ := txSlot_cases h
  · rfl
  · exact (hf _ _ hfin :)

theorem rxSlot_cfg {fin : Byte → State → Host.Outcome State Fault Refusal}
    (hf : ∀ v u t, fin v u = .next t → t.cfg = u.cfg) (h : rxSlot fin s = .next t) : t.cfg = s.cfg := by
  obtain ⟨-, ⟨-, rfl⟩ | ⟨-, hfin⟩⟩ := rxSlot_cases h
  · exact rxSample_cfg _ _ s
  · exact (hf _ _ _ hfin).trans (rxSample_cfg _ _ s)

/-! ### The rules that count down, take a slot or test the state -/

theorem finishRxPayload_cfg {v : Byte} (h : finishRxPayload v s = .next t) : t.cfg = s.cfg := by
  unfold finishRxPayload at h
  split at h <;> cases h <;> rfl

theorem finishRxData_cfg {v : Byte} (h : finishRxData v s = .next t) : t.cfg = s.cfg := by
  unfold finishRxData at h
  rcases Nat.lt_or_ge s.byteIndex.toNat maxFrameSize with hi | hi
  · rw [bufWrite_of_lt hi] at h
    cases h
    rfl
  · rw [bufWrite_of_ge hi] at h
    cases h

theorem execTxStrobe_cfg (h : execTxStrobe s = .next t) : t.cfg = s.cfg := by
  unfold execTxStrobe at h
  exact (countdown_cfg (fun _ _ hfin => by cases hfin; rfl) h :)

theorem execTxSync_cfg (h : execTxSync s = .next t) : t.cfg = s.cfg := by
  unfold execTxSync at h
  exact (countdown_cfg (fun _ _ hfin => by cases hfin; rfl) h :)

theorem execTxPayload_cfg (h : execTxPayload s = .next t) : t.cfg = s.cfg := by
  unfold execTxPayload at h
  exact (txSlot_cfg (fun _ _ hfin => by cases hfin; rfl) h :)

theorem execTxData_cfg (h : execTxData s = .next t) : t.cfg = s.cfg := by
  unfold execTxData at h
  split at h
  · cases h
  · exact txSlot_cfg (fun _ _ hfin => by cases hfin; rfl) h

theorem execTxLeadout_cfg (h : execTxLeadout s = .next t) : t.cfg = s.cfg := by
  unfold execTxLeadout at h
  exact (txSlot_cfg (fun _ _ hfin => by cases hfin; rfl) h :)

theorem execRxSync_cfg (h : execRxSync s = .next t) : t.cfg = s.cfg := by
  unfold execRxSync at h
  exact (countdown_cfg (fun _ _ hfin => by cases hfin; rfl) h :)

theorem execRxPayload_cfg (h : execRxPayload s = .next t) : t.cfg = s.cfg := by
  unfold execRxPayload at h
  exact (rxSlot_cfg (fun _ _ _ => finishRxPayload_cfg) h :)

theorem execRxData_cfg (h : execRxData s = .next t) : t.cfg = s.cfg := by
  unfold execRxData at h
  exact (rxSlot_cfg (fun _ _ _ => finishRxData_cfg) h :)

theorem execRxLeadout_cfg (h : execRxLeadout s = .next t) : t.cfg = s.cfg := by
  unfold execRxLeadout at h
  exact (rxSlot_cfg (fun _ _ _ hfin => by cases hfin; rfl) h :)

theorem execRxRecv_cfg (h : execRxRecv s = .next t) : t.cfg = s.cfg := by
  unfold execRxRecv at h
  split at h <;> cases h
  · simp
  · rfl

theorem execConfigure_cfg {rate : Nat} {d : Dir} (h : execConfigure rate d s = .next t) : t.cfg = s.cfg := by
  obtain ⟨-, ⟨-, rfl⟩ | ⟨-, -, _, -, rfl⟩⟩ := execConfigure_cases h <;> rfl

theorem execTransmit_cfg {n : Nat} {data : List Byte} (h : execTransmit n data s = .next t) : t.cfg = s.cfg := by
  obtain ⟨_, rfl⟩ | ⟨-, -, -, rfl⟩ := execTransmit_cases h <;> rfl

theorem receiveCritical_cfg (h : receiveCritical s = .next t) : t.cfg = s.cfg := by
  obtain ⟨-, rfl⟩ | ⟨-, -, -, rfl⟩ := receiveCritical_cases h <;> rfl

theorem execReceive_cfg (h : execReceive s = .next t) : t.cfg = s.cfg := by
  obtain ⟨-, _, rfl⟩ | ⟨-, -, -, rfl⟩ | ⟨-, -, -, -, rfl⟩ | ⟨-, hcrit⟩ := execReceive_cases h
  · rfl
  · rfl
  · rfl
  · exact receiveCritical_cfg hcrit

theorem execCrc16_cfg {data : List Byte} {n : Nat} (h : execCrc16 data n s = .next t) : t.cfg = s.cfg := by
  unfold execCrc16 at h
  split at h <;> cases h
  rfl

/-! ### Instructions and turns -/

/-- The frame of `cfg` over the instructions. The last arm holds those whose outcome is one record update, a fault or a
refusal, whatever the state. -/
theorem exec_cfg {i : Instr} (h : exec i s = .next t) : t.cfg = s.cfg := by
  cases i with
  | idle _ => rw [(execIdle_cases h).2]
  | txStrobe => exact execTxStrobe_cfg h
  | txSync => exact execTxSync_cfg h
  | txPayload => exact execTxPayload_cfg h
  | txData => exact execTxData_cfg h
  | txLeadout => exact execTxLeadout_cfg h
  | rxReady => cases h; exact lockStep_cfg _ _
  | rxSync => exact execRxSync_cfg h
  | rxPayload => exact execRxPayload_cfg h
  | rxData => exact execRxData_cfg h
  | rxLeadout => exact execRxLeadout_cfg h
  | rxRecv => exact execRxRecv_cfg h
  | configure => exact execConfigure_cfg h
  | transmit => exact execTransmit_cfg h
  | receive => exact execReceive_cfg h
  | crc16 => exact execCrc16_cfg h
  | _ => cases h <;> rfl

theorem runTick_cfg {b : Bool} (h : runTick b s = .next t) : t.cfg = s.cfg := by
  obtain ⟨-, -, hexec⟩ | ⟨-, rfl⟩ := runTick_cases h
  · exact (exec_cfg hexec :)
  · rfl

@[simp] theorem spinAt_cfg (n : Nat) (s : State) : (spinAt n s).cfg = s.cfg := by
  obtain ⟨-, -, h⟩ | ⟨-, h⟩ := spinAt_cases n s <;> rw [h]
  rfl

/-- A firing is a tick, after which a spin may begin. -/
theorem fireTick_cases (h : fireTick s = .next t) :
    ∃ u, runTick s.lineIn s = .next u ∧
      (s.dir = .receive ∧ u.phaseReq = true ∧ t = spinAt 0 u ∨
        ¬ (s.dir = .receive ∧ u.phaseReq = true) ∧ t = u) := by
  unfold fireTick at h
  split at h
  · rename_i u hu
    refine ⟨u, hu, ?_⟩
    injection h with h
    split at h
    · rename_i hspin
      exact .inl ⟨hspin.1, hspin.2, h.symm⟩
    · exact .inr ⟨‹_›, h.symm⟩
  · rename_i hne
    exact absurd h (hne t)

theorem fireTick_cfg (h : fireTick s = .next t) : t.cfg = s.cfg := by
  obtain ⟨u, hu, ⟨-, -, rfl⟩ | ⟨-, rfl⟩⟩ := fireTick_cases h
  · rw [spinAt_cfg, runTick_cfg hu]
  · exact runTick_cfg hu

theorem clockEdge_cfg {b : Bool} (h : clockEdge b s = .next t) : t.cfg = s.cfg := by
  obtain ⟨n, -, he⟩ | ⟨-, -, he⟩ | ⟨-, -, -, he⟩ | ⟨-, -, -, -, he⟩ | ⟨-, -, -, -, he⟩ := clockEdge_cases b s <;>
    rw [he] at h
  · cases h; exact spinAt_cfg _ _
  · cases h; rfl
  · cases h; rfl
  · exact (fireTick_cfg h :)
  · cases h; rfl

theorem send_cfg {dst : BitVec 16} {n : Nat} {data : List Byte} (h : send dst n data s = .next t) :
    t.cfg = s.cfg := by
  simp only [send] at h
  split at h
  · cases h; rfl
  · split at h
    · cases h
    · exact execTransmit_cfg h

theorem recvPoll_cfg (h : recvPoll s = .next t) : t.cfg = s.cfg := by
  obtain ⟨u, hu, ⟨-, rfl⟩ | ⟨-, rfl⟩⟩ := recvPoll_cases h
  · exact execReceive_cfg hu
  · obtain ⟨r, a, hjudge⟩ := recvJudge_cases s.hostReturn u
    rw [hjudge]
    exact (execReceive_cfg hu :)

theorem recvStart_cfg (h : recvStart s = .next t) : t.cfg = s.cfg := by
  unfold recvStart at h
  split at h
  · cases h; rfl
  · exact (recvPoll_cfg h :)

theorem runCall_cfg {c : HostCall} (h : runCall c s = .next t) : t.cfg = s.cfg := by
  cases c with
  | code c =>
    cases hd : decodeHost c with
    | ok i => rw [runCall_code hd] at h; exact exec_cfg h
    | error e => simp [runCall, hd] at h
  | send => exact send_cfg h
  | recv => exact recvStart_cfg h

theorem hostTurn_cfg (h : hostTurn s = .next t) : t.cfg = s.cfg := by
  obtain ⟨-, he⟩ | ⟨-, -, he⟩ | ⟨-, -, -, he⟩ | ⟨-, -, -, ⟨-, he⟩ | ⟨c, q, -, he⟩⟩ := hostTurn_cases s <;>
    rw [he] at h
  · cases h; rfl
  · exact recvPoll_cfg h
  · exact exec_cfg h
  · cases h; rfl
  · exact (runCall_cfg h :)

theorem takeTurn_cfg {u : Turn} (h : takeTurn u s = .next t) : t.cfg = s.cfg := by
  cases u with
  | tick => exact runTick_cfg h
  | clock => exact clockEdge_cfg h
  | host => exact hostTurn_cfg h

end Sys2Proof.Machine

namespace Sys2Proof

open Sys2Proof.Machine

/-- Settles O8: every agent's turn keeps `cfg`, and a step is a turn or, with none left, nothing. -/
theorem noStepChangesTheParameters : Obligations.NoStepChangesTheParameters := by
  unfold Obligations.NoStepChangesTheParameters
  intro s t h
  cases hs : s.schedule with
  | nil => rw [step_nil hs] at h; cases h; rfl
  | cons u ts => rw [step_cons hs] at h; exact (takeTurn_cfg h :)

end Sys2Proof
end

section
/-! The invariant is kept, and no step faults (R51, R72, R168, R201). Both halves are one judgement on the outcome of a
step, `Safe`: a next state meets `Inv`, and the outcome is no fault. It is shown of the shared operations, of each tick
rule in the state that selects it, of each command, and so of every agent's turn. -/

namespace Sys2Proof

open Sys2Proof.Machine

/-- An outcome that a state meeting `Inv` may have: a next state that meets `Inv`, or a refusal, but no fault. -/
inductive Safe : Host.Outcome State Fault Refusal → Prop where
  | next {t : State} : Inv t → Safe (.next t)
  | refused {r : Refusal} : Safe (.refused r)

theorem Safe.inv {t : State} (h : Safe (.next t)) : Inv t := by cases h; assumption

theorem Safe.not_fault {f : Fault} (h : Safe (.fault f)) : False := by cases h

end Sys2Proof

namespace Sys2Proof.Machine

open Sys2Proof

variable {s : State} {finish : State → Host.Outcome State Fault Refusal}

/-! ### Updates that keep the invariant -/

theorem tbyte_pos (h : Inv s) : 1 ≤ s.cfg.tbyte := by
  obtain ⟨hw, -⟩ := h.cfgValid
  cases hc : s.cfg.coding <;> simp only [hc, Coding.wireLength] at hw <;> omega

theorem reply_inv (h : Inv s) (r : ResultCode) : Inv (s.reply r) := { h with }

theorem answer_inv (h : Inv s) (i : ReturnInfo) : Inv (s.answer i) := { h with }

theorem beginRx_inv (h : Inv s) : Inv s.beginRx := { h with }

/-- A phase that goes on keeps its countdown in range. -/
theorem countDown_inv (h : Inv s) (h2 : 2 ≤ s.bitTimer) : Inv { s with bitTimer := s.bitTimer - 1 } :=
  { h with
    timerInPhase := fun m hm => by
      have hb := h.timerInPhase m hm
      show 1 ≤ s.bitTimer - 1 ∧ s.bitTimer - 1 ≤ m
      omega }

/-- Entering a state of the link's FSM with a countdown that fits its phase, where the frame's length and index are those
the state asks for. -/
theorem enterPhase_inv (h : Inv s) {st : LinkState} {n : Nat} (hlegal : stateLegal s.dir st = true)
    (hticks : ∀ m, phaseTicks s.cfg s.dir st = some m → 1 ≤ n ∧ n ≤ m)
    (hdata : st = .data → s.byteIndex.toNat < s.payloadLength.toNat)
    (hafter : st = .leadout ∨ st = .recv → s.byteIndex.toNat ≤ s.payloadLength.toNat)
    (hrx : s.dir = .receive → st = .data ∨ st = .leadout ∨ st = .recv → 1 ≤ s.payloadLength.toNat) :
    Inv (s.enterPhase st n) :=
  { h with
    statesLegal := hlegal
    timerInPhase := hticks
    indexInFrame := hdata
    indexAfterFrame := hafter
    rxLengthPositive := hrx }

/-- Entering a state before the frame's data, of which the invariant asks nothing about the frame. -/
theorem enterPhase_inv_of_early (h : Inv s) {st : LinkState} {n : Nat} (hlegal : stateLegal s.dir st = true)
    (hticks : ∀ m, phaseTicks s.cfg s.dir st = some m → 1 ≤ n ∧ n ≤ m)
    (hearly : ¬ (st = .data ∨ st = .leadout ∨ st = .recv)) : Inv (s.enterPhase st n) :=
  enterPhase_inv h hlegal hticks (fun hd => absurd (.inl hd) hearly) (fun ha => absurd (.inr ha) hearly)
    (fun _ hr => absurd hr hearly)

/-- The next index of a frame does not wrap: it is at most 41, of six bits. -/
theorem byteIndex_succ_toNat (h : Inv s) : (s.byteIndex + 1).toNat = s.byteIndex.toNat + 1 := by
  have hb := h.indexBound
  rw [maxFrameSize_eq] at hb
  bv_omega

/-- DATA and LEADOUT are states of the same directions. -/
theorem stateLegal_leadout (d : Dir) : stateLegal d .leadout = stateLegal d .data := by cases d <;> rfl

/-- Entering a slot state sets a full slot's countdown (R96). -/
theorem slot_ticks (h : Inv s) {st : LinkState} (hst : st = .payload ∨ st = .data ∨ st = .leadout) {m : Nat}
    (hm : phaseTicks s.cfg s.dir st = some m) : 1 ≤ s.cfg.tbyte ∧ s.cfg.tbyte ≤ m := by
  have hm' : m = s.cfg.tbyte := by
    obtain rfl | rfl | rfl := hst <;> cases hd : s.dir <;> rw [hd] at hm <;> cases hm <;> rfl
  exact ⟨tbyte_pos h, hm'.ge⟩

/-- The end of a data slot of either FSM: LEADOUT after the frame's last byte, else the next byte (R166, R197). -/
theorem enterNextByte_inv (h : Inv s) (hs : s.st = .data) :
    Inv ({ s with byteIndex := s.byteIndex + 1 }.enterPhase
      (if s.byteIndex + 1 = s.payloadLength then .leadout else s.st) s.cfg.tbyte) := by
  have hlt := h.indexInFrame hs
  have hlen := h.lengthBound
  have hsucc := byteIndex_succ_toNat h
  have hlegal : stateLegal s.dir .data = true := hs ▸ h.statesLegal
  have hbound : (s.byteIndex + 1).toNat ≤ maxFrameSize := by omega
  split
  · rename_i hlast
    exact
      { h with
        indexBound := hbound
        indexInFrame := nofun
        indexAfterFrame := fun _ => (congrArg BitVec.toNat hlast).le
        timerInPhase := fun _ => slot_ticks h (.inr (.inr rfl))
        rxLengthPositive := fun _ _ => (Nat.zero_le _).trans_lt hlt
        statesLegal := (stateLegal_leadout s.dir).trans hlegal }
  · rename_i hmore
    rw [hs]
    have hne : s.byteIndex.toNat + 1 ≠ s.payloadLength.toNat := fun he =>
      hmore (BitVec.eq_of_toNat_eq (hsucc.trans he))
    exact
      { h with
        indexBound := hbound
        indexInFrame := fun _ => by show (s.byteIndex + 1).toNat < s.payloadLength.toNat; omega
        indexAfterFrame := nofun
        timerInPhase := fun _ => slot_ticks h (.inr (.inl rfl))
        rxLengthPositive := fun _ _ => (Nat.zero_le _).trans_lt hlt
        statesLegal := hlegal }

/-! ### The shared operations -/

/-- A timed phase of length `m` never meets a stopped counter, so a tick of it is safe where the phase's end is. -/
theorem countdown_safe (h : Inv s) {m : Nat} (hm : phaseTicks s.cfg s.dir s.st = some m)
    (hfin : Safe (finish { s with bitTimer := 0 })) : Safe (countdown finish s) := by
  have hb := h.timerInPhase _ hm
  rcases Nat.eq_or_lt_of_le hb.1 with h1 | h2
  · rw [countdown_last h1.symm]
    exact hfin
  · rw [countdown_running h2]
    exact .next (countDown_inv h h2)

/-- A TX tick of a slot is safe where the slot's end is. -/
theorem txSlot_safe {w : BitVec 11} (h : Inv s) (hm : phaseTicks s.cfg s.dir s.st = some s.cfg.tbyte)
    (hfin : ∀ b, Safe (finish { s with lineOut := b, bitTimer := 0 })) : Safe (txSlot w finish s) := by
  have hb := h.timerInPhase _ hm
  rw [txSlot_of_bounds hb.1 hb.2]
  exact countdown_safe (s := { s with lineOut := _ }) { h with } hm (hfin _)

theorem shiftIn_lt (cfg : Config) (r : BitVec 10) (b : Bool) : (shiftIn cfg r b).toNat < 2 ^ (wireLength cfg - 1) := by
  rw [shiftIn, BitVec.toNat_ofNat]
  exact (Nat.mod_le _ _).trans_lt (Nat.mod_lt _ (Nat.two_pow_pos _))

/-- The sample of a slot tick keeps `shiftReg` in its `W - 1` bits (R40, R195). -/
theorem rxSample_inv (h : Inv s) (k : Nat) (b : Bool) : Inv (rxSample k b s) := by
  unfold rxSample
  split
  · exact { h with shiftWidth := Nat.two_pow_pos _ }
  · split
    · exact { h with shiftWidth := shiftIn_lt _ _ _ }
    · exact h

/-- An RX tick of a slot is safe where the slot's end is, with any decoded byte. -/
theorem rxSlot_safe {fin : Byte → State → Host.Outcome State Fault Refusal} (h : Inv s)
    (hm : phaseTicks s.cfg s.dir s.st = some s.cfg.tbyte)
    (hfin : ∀ v u, Inv u → u.dir = s.dir → u.st = s.st → Safe (fin v u)) : Safe (rxSlot fin s) := by
  have hb := h.timerInPhase _ hm
  simp only [rxSlot, slotTick_of_bounds hb.1 hb.2]
  have hu := rxSample_inv h (s.cfg.tbyte - s.bitTimer) s.lineIn
  obtain ⟨r, p, he⟩ := rxSample_cases (s.cfg.tbyte - s.bitTimer) s.lineIn s
  rw [he] at hu ⊢
  split
  · exact hfin _ _ hu rfl rfl
  · rename_i h1
    exact .next (countDown_inv hu (Nat.lt_of_le_of_ne hb.1 (Ne.symm h1)))

/-- The lock-on step, in a state of the RX FSM in which it runs (R193). -/
theorem lockStep_inv (h : Inv s) (hd : s.dir = .receive) (b : Bool) : Inv (lockStep b s) := by
  obtain ⟨-, -, hn, -⟩ := h.cfgValid
  cases b with
  | true => exact { h with lockBound := Nat.min_le_right _ _ }
  | false =>
    by_cases hl : s.lockCount = s.cfg.nSync / 2
    · rw [lockStep_lock hl]
      have hsync : Inv (s.enterPhase .sync (s.cfg.nSync / 2 - 1)) :=
        enterPhase_inv_of_early h (by rw [hd]; rfl) (fun m hm => by rw [hd] at hm; cases hm; omega) (by decide)
      exact { hsync with lockBound := Nat.zero_le _ }
    · rw [lockStep_reset hl]
      exact { h with lockBound := Nat.zero_le _ }

/-! ### The tick rules, each in the state that selects it -/

theorem execIdle_safe (h : Inv s) (hs : s.st = .ready) : Safe (execIdle s) := by
  rw [execIdle, if_neg (by rw [hs]; decide)]
  exact .next h

section Transmit

variable (h : Inv s) (hd : s.dir = .transmit)
include h hd

theorem execTxStart_safe : Safe (execTxStart s) := by
  obtain ⟨-, hn, -⟩ := h.cfgValid
  have hstrobe : Inv (s.enterPhase .strobe s.cfg.nStrobe) :=
    enterPhase_inv_of_early h (by rw [hd]; rfl) (fun m hm => by rw [hd] at hm; cases hm; omega) (by decide)
  exact .next { hstrobe with }

theorem execTxStrobe_safe (hs : s.st = .strobe) : Safe (execTxStrobe s) := by
  obtain ⟨-, -, hn, -⟩ := h.cfgValid
  have hsync : Inv (s.enterPhase .sync s.cfg.nSync) :=
    enterPhase_inv_of_early h (by rw [hd]; rfl) (fun m hm => by rw [hd] at hm; cases hm; omega) (by decide)
  have hm : phaseTicks s.cfg s.dir s.st = some s.cfg.nStrobe := by rw [hd, hs]; rfl
  exact countdown_safe (s := { s with lineOut := !s.lineOut }) { h with } hm (.next { hsync with })

theorem execTxSync_safe (hs : s.st = .sync) : Safe (execTxSync s) := by
  have hpayload : Inv (s.enterPhase .payload s.cfg.tbyte) :=
    enterPhase_inv_of_early h (by rw [hd]; rfl) (fun _ => slot_ticks h (.inl rfl)) (by decide)
  have hm : phaseTicks s.cfg s.dir s.st = some s.cfg.nSync := by rw [hd, hs]; rfl
  exact countdown_safe (s := { s with lineOut := _ }) { h with } hm (.next { hpayload with })

/-- A frame of no byte goes on to its LEADOUT, any other to its first DATA slot (R165). -/
theorem finishTxPayload_inv :
    Inv ({ s with byteIndex := 0 }.enterPhase (if s.payloadLength = 0 then .leadout else .data) s.cfg.tbyte) := by
  have hzero : Inv { s with byteIndex := 0 } :=
    { h with
      indexBound := Nat.zero_le _
      indexInFrame := fun hs => (Nat.zero_le _).trans_lt (h.indexInFrame hs)
      indexAfterFrame := fun _ => Nat.zero_le _ }
  refine enterPhase_inv hzero ?_ ?_ ?_ (fun _ => Nat.zero_le _) (fun hr => by rw [hd] at hr; cases hr)
  · split <;> rw [hd] <;> rfl
  · refine fun _ => slot_ticks h (.inr ?_)
    split
    · exact .inr rfl
    · exact .inl rfl
  · intro hdata
    have hne : s.payloadLength ≠ 0 := fun h0 => by rw [if_pos h0] at hdata; cases hdata
    exact Nat.pos_of_ne_zero fun h0 => hne (BitVec.eq_of_toNat_eq h0)

theorem execTxPayload_safe (hs : s.st = .payload) : Safe (execTxPayload s) :=
  txSlot_safe h (by rw [hd, hs]; rfl) fun _ => .next { finishTxPayload_inv h hd with }

theorem execTxData_safe (hs : s.st = .data) : Safe (execTxData s) := by
  have hi : s.byteIndex.toNat < maxFrameSize := (h.indexInFrame hs).trans_le h.lengthBound
  simp only [execTxData, bufRead_of_lt hi]
  exact txSlot_safe h (by rw [hd, hs]; rfl) fun _ => .next { enterNextByte_inv h hs with }

theorem execTxLeadout_safe (hs : s.st = .leadout) : Safe (execTxLeadout s) := by
  have hready : Inv (s.enterPhase .ready 0) :=
    enterPhase_inv_of_early h (by rw [hd]; rfl) (fun m hm => by rw [hd] at hm; cases hm) (by decide)
  exact txSlot_safe h (by rw [hd, hs]; rfl) fun _ => .next { hready with }

end Transmit

section Receive

variable (h : Inv s) (hd : s.dir = .receive)
include h hd

theorem execRxStart_safe : Safe (execRxStart s) := by
  have hready : Inv (s.enterPhase .ready s.bitTimer) :=
    enterPhase_inv_of_early h (by rw [hd]; rfl) (fun m hm => by rw [hd] at hm; cases hm) (by decide)
  exact .next { hready with lockBound := Nat.zero_le _ }

theorem execRxReady_safe : Safe (execRxReady s) := .next (lockStep_inv (beginRx_inv h) hd _)

theorem execRxSync_safe (hs : s.st = .sync) : Safe (execRxSync s) := by
  have hpayload : Inv (s.enterPhase .payload s.cfg.tbyte) :=
    enterPhase_inv_of_early h (by rw [hd]; rfl) (fun _ => slot_ticks h (.inl rfl)) (by decide)
  have hm : phaseTicks s.cfg s.dir s.st = some (s.cfg.nSync / 2 - 1) := by rw [hd, hs]; rfl
  exact countdown_safe (s := s.beginRx) (beginRx_inv h) hm (.next { hpayload with })

/-- A count of 1 to 40 opens the first DATA slot; any other enters ERROR (R196). -/
theorem finishRxPayload_safe (hs : s.st = .payload) (v : Byte) : Safe (finishRxPayload v s) := by
  unfold finishRxPayload
  split
  · rename_i hv
    have hlen : (v.setWidth 6).toNat = v.toNat := by
      rw [maxFrameSize_eq] at hv
      rw [BitVec.toNat_setWidth, Nat.mod_eq_of_lt (by omega)]
    have hframe : Inv { s with payloadLength := v.setWidth 6, byteIndex := 0 } :=
      { h with
        lengthBound := hlen.le.trans hv.2
        indexBound := Nat.zero_le _
        indexInFrame := fun hst => by cases hs.symm.trans hst
        indexAfterFrame := fun _ => Nat.zero_le _
        rxLengthPositive := fun _ _ => hv.1.trans hlen.ge }
    exact .next (enterPhase_inv hframe (by rw [hd]; rfl) (fun _ => slot_ticks h (.inr (.inl rfl)))
      (fun _ => hv.1.trans hlen.ge) nofun (fun _ _ => hv.1.trans hlen.ge))
  · have herror : Inv (s.enterPhase .error s.bitTimer) :=
      enterPhase_inv_of_early h (by rw [hd]; rfl) (fun m hm => by rw [hd] at hm; cases hm) (by decide)
    exact .next { herror with }

theorem execRxPayload_safe (hs : s.st = .payload) : Safe (execRxPayload s) :=
  rxSlot_safe (beginRx_inv h) (by rw [State.beginRx_dir, State.beginRx_st, hd, hs]; rfl) fun v _ hu hud hus =>
    finishRxPayload_safe hu (hud.trans hd) (hus.trans hs) v

omit hd in
/-- The decoded byte is stored inside the buffer, since the index is inside the frame (R51, R197). -/
theorem finishRxData_safe (hs : s.st = .data) (v : Byte) : Safe (finishRxData v s) := by
  have hi : s.byteIndex.toNat < maxFrameSize := (h.indexInFrame hs).trans_le h.lengthBound
  have hstored : Inv { s with frameBuffer := s.frameBuffer.write s.byteIndex.toNat v } :=
    { h with bufferWf := Memory.wf_write h.bufferWf hi }
  simp only [finishRxData, bufWrite_of_lt hi]
  exact .next (enterNextByte_inv hstored hs)

theorem execRxData_safe (hs : s.st = .data) : Safe (execRxData s) :=
  rxSlot_safe (beginRx_inv h) (by rw [State.beginRx_dir, State.beginRx_st, hd, hs]; rfl) fun v _ hu _ hus =>
    finishRxData_safe hu (hus.trans hs) v

theorem finishRxLeadout_safe (hs : s.st = .leadout) (v : Byte) : Safe (finishRxLeadout v s) := by
  have hafter := h.indexAfterFrame (.inl hs)
  have hlen := h.rxLengthPositive hd (.inr (.inl hs))
  have hrecv : Inv (s.enterPhase .recv s.bitTimer) :=
    enterPhase_inv h (by rw [hd]; rfl) (fun m hm => by rw [hd] at hm; cases hm) nofun (fun _ => hafter) (fun _ _ => hlen)
  exact .next { hrecv with }

theorem execRxLeadout_safe (hs : s.st = .leadout) : Safe (execRxLeadout s) :=
  rxSlot_safe (beginRx_inv h) (by rw [State.beginRx_dir, State.beginRx_st, hd, hs]; rfl) fun v _ hu hud hus =>
    finishRxLeadout_safe hu (hud.trans hd) (hus.trans hs) v

theorem execRxRecv_safe : Safe (execRxRecv s) := by
  unfold execRxRecv
  split
  · exact .next (lockStep_inv (beginRx_inv h) hd _)
  · exact .next (beginRx_inv h)

end Receive

/-! ### The tick of the link's key -/

theorem decodeTick_none (st : LinkState) : decodeTick (dispatchKey .none st) = .idle st.code := by
  simp only [decodeTick, dispatchKey_fields, Dir.ofCode_code]

theorem decodeTick_transmit (st : LinkState) : decodeTick (dispatchKey .transmit st) = decodeTxKey st.code := by
  simp only [decodeTick, dispatchKey_fields, Dir.ofCode_code]

theorem decodeTick_receive (st : LinkState) : decodeTick (dispatchKey .receive st) = decodeRxKey st.code := by
  simp only [decodeTick, dispatchKey_fields, Dir.ofCode_code]

/-- A state of the link's FSM selects one of its tick rules (R100), never an unreachable one. -/
theorem keyTick_safe (h : Inv s) : Safe (exec (decodeTick s.key) s) := by
  have hlegal := h.statesLegal
  rw [State.key]
  cases hd : s.dir with
  | none =>
    rw [decodeTick_none]
    cases hs : s.st with
    | ready => exact execIdle_safe h hs
    | _ => simp [stateLegal, hd, hs] at hlegal
  | transmit =>
    rw [decodeTick_transmit]
    cases hs : s.st with
    | ready => exact .next { h with }
    | start => exact execTxStart_safe h hd
    | strobe => exact execTxStrobe_safe h hd hs
    | sync => exact execTxSync_safe h hd hs
    | payload => exact execTxPayload_safe h hd hs
    | data => exact execTxData_safe h hd hs
    | leadout => exact execTxLeadout_safe h hd hs
    | _ => simp [stateLegal, hd, hs] at hlegal
  | receive =>
    rw [decodeTick_receive]
    cases hs : s.st with
    | ready => exact execRxReady_safe h hd
    | start => exact execRxStart_safe h hd
    | sync => exact execRxSync_safe h hd hs
    | payload => exact execRxPayload_safe h hd hs
    | data => exact execRxData_safe h hd hs
    | leadout => exact execRxLeadout_safe h hd hs
    | recv => exact execRxRecv_safe h hd
    | error => exact .next (beginRx_inv h)
    | _ => simp [stateLegal, hd, hs] at hlegal
  | reserved => simp [stateLegal, hd] at hlegal

theorem runTick_safe (h : Inv s) (b : Bool) : Safe (runTick b s) := by
  unfold runTick
  split
  · exact keyTick_safe (s := tickEntry b s) { h with }
  · exact .next h

/-! ### The clock edge -/

theorem countEdge_inv (h : Inv s) : Inv (countEdge s) := by
  refine { h with tcntWidth := ?_ }
  show (if s.tcnt = s.compare then 0 else (s.tcnt + 1) % 2 ^ s.cfg.cmpWidth) < 2 ^ s.cfg.cmpWidth
  split
  · exact Nat.two_pow_pos _
  · exact Nat.mod_lt _ (Nat.two_pow_pos _)

theorem spinAt_inv (h : Inv s) (n : Nat) : Inv (spinAt n s) := by
  obtain ⟨-, -, he⟩ | ⟨-, he⟩ := spinAt_cases n s <;> rw [he]
  · exact { h with }
  · exact { h with tcntWidth := endSpin_tcnt_lt s }

theorem fireTick_safe (h : Inv s) : Safe (fireTick s) := by
  have hrun := runTick_safe h s.lineIn
  unfold fireTick
  split
  · rename_i u hu
    rw [hu] at hrun
    refine .next ?_
    split
    · exact spinAt_inv hrun.inv 0
    · exact hrun.inv
  · exact hrun

/-- An edge of the prescaled clock. No tick waits, since ticks are enabled where the prescaler runs (R307). -/
theorem clockEdge_safe (h : Inv s) (b : Bool) : Safe (clockEdge b s) := by
  have hin : Inv { s with lineIn := b } := { h with }
  obtain ⟨n, -, he⟩ | ⟨-, -, he⟩ | ⟨-, -, -, he⟩ | ⟨-, -, -, -, he⟩ | ⟨-, hp, -, ht, -⟩ := clockEdge_cases b s
  · exact he ▸ .next (spinAt_inv hin _)
  · exact he ▸ .next hin
  · exact he ▸ .next (countEdge_inv hin)
  · exact he ▸ fireTick_safe { countEdge_inv hin with noTickWaits := rfl }
  · rw [h.enabledIffConfigured.2 hp] at ht
    cases ht

/-! ### The commands -/

/-- A configured link starts over in READY, with a legal rate and a compare value that fits. While a RECEIVE is between
its phases the host issues no CONFIGURE, which would take the link from under it. -/
theorem configured_inv (h : Inv s) (hp : s.receivePending = false) {rate cmp : Nat} {d : Dir} (hd : d ≠ .reserved)
    (hlo : 100 ≤ rate) (hhi : rate ≤ 5000) (hcmp : cmp < 2 ^ s.cfg.cmpWidth) :
    Inv { s with
      dir := d, baud := BitVec.ofNat 13 rate, prescaler := prescaleOf rate, compare := cmp, st := .ready
      lockCount := 0, tcnt := 0, tickEnable := true } := by
  have hbaud : (BitVec.ofNat 13 rate).toNat = rate := by
    rw [BitVec.toNat_ofNat, Nat.mod_eq_of_lt (by omega)]
  have hrun : prescaleOf rate ≠ .stopped := by
    unfold prescaleOf
    split
    · nofun
    · split <;> nofun
  exact
    { h with
      indexInFrame := nofun
      indexAfterFrame := nofun
      timerInPhase := fun m hm => by cases d <;> cases hm
      lockBound := Nat.zero_le _
      rxLengthPositive := nofun
      compareWidth := hcmp
      tcntWidth := Nat.two_pow_pos _
      baudLegal := .inr ⟨hlo.trans hbaud.ge, hbaud.le.trans hhi⟩
      statesLegal := by
        cases d with
        | reserved => exact absurd rfl hd
        | _ => rfl
      enabledIffConfigured := ⟨fun _ => hrun, fun _ => rfl⟩
      pendingOnRx := fun hpend => by rw [hp] at hpend; cases hpend }

theorem execConfigure_safe (h : Inv s) (hp : s.receivePending = false) (rate : Nat) (d : Dir) :
    Safe (execConfigure rate d s) := by
  unfold execConfigure
  split
  · exact .refused
  · rename_i hd
    split
    · exact .next (reply_inv h _)
    · rename_i hrate
      have hrate : 100 ≤ rate ∧ rate ≤ 5000 := by simpa [rateOutOfRange, not_or] using hrate
      split
      · exact .refused
      · rename_i cmp hcmp
        exact .next { configured_inv h hp hd hrate.1 hrate.2 (compareOf_lt hcmp) with }

/-- A link whose frame was loaded is in START, with at most 40 bytes written from index 0 on. -/
theorem transmitted_inv (h : Inv s) (hd : s.dir = .transmit) {n : Nat} (hn : n ≤ maxFrameSize) {bs : List Byte}
    (hbs : bs.length ≤ maxFrameSize) :
    Inv { s with
      frameBuffer := s.frameBuffer.load 0 bs, payloadLength := BitVec.ofNat 6 n, st := .start, tcnt := 0 } :=
  { h with
    bufferWf := Memory.wf_load h.bufferWf ((Nat.zero_add _).le.trans hbs)
    lengthBound := (BitVec.toNat_ofNat n 6).le.trans ((Nat.mod_le _ _).trans hn)
    indexInFrame := nofun
    indexAfterFrame := nofun
    timerInPhase := fun m hm => by rw [hd] at hm; cases hm
    rxLengthPositive := nofun
    tcntWidth := Nat.two_pow_pos _
    statesLegal := by rw [hd]; rfl }

theorem execTransmit_safe (h : Inv s) (n : Nat) (data : List Byte) : Safe (execTransmit n data s) := by
  simp only [execTransmit]
  split
  · exact .next (reply_inv h _)
  · rename_i hcheck
    have hd : s.dir = .transmit := by
      by_contra hd
      simp [transmitCheck, hd] at hcheck
    split
    · exact .refused
    · have hn : min n maxFrameSize ≤ maxFrameSize := Nat.min_le_right _ _
      exact .next { transmitted_inv h hd hn ((List.length_take_le _ data).trans hn) with }

/-- A RECEIVE that ends restarts the Receive link. -/
theorem restarted_inv (h : Inv s) (hd : s.dir = .receive) : Inv { s with st := .start } := by
  have hstart : Inv (s.enterPhase .start s.bitTimer) :=
    enterPhase_inv_of_early h (by rw [hd]; rfl) (fun m hm => by rw [hd] at hm; cases hm) (by decide)
  exact { hstart with }

/-- RECEIVE's critical phase copies at most 40 bytes, for `payloadLength` is at most 40 (R51). -/
theorem receiveCritical_safe (h : Inv s) (hd : s.dir = .receive) : Safe (receiveCritical s) := by
  have hstart := restarted_inv h hd
  unfold receiveCritical
  split
  · exact .next { hstart with pendingOnRx := nofun }
  · rw [if_neg (Nat.not_lt.2 h.lengthBound)]
    split
    · exact .refused
    · exact .next { hstart with pendingOnRx := nofun }

theorem receiveCheckPhase_safe (h : Inv s) : Safe (receiveCheckPhase s) := by
  by_cases hd : s.dir = .receive
  · unfold receiveCheckPhase
    split
    · exact .next (reply_inv (restarted_inv h hd) _)
    · exact .next (reply_inv h _)
    · split
      · exact .next { h with pendingOnRx := fun _ => hd }
      · exact receiveCritical_safe h hd
  · have hcheck : receiveCheck s = some .configError := if_pos hd
    rw [receiveCheckPhase, hcheck]
    exact .next (reply_inv h _)

theorem execReceive_safe (h : Inv s) : Safe (execReceive s) := by
  unfold execReceive
  split
  · exact receiveCritical_safe h (h.pendingOnRx ‹_›)
  · exact receiveCheckPhase_safe h

theorem execCrc16_safe (h : Inv s) (data : List Byte) (n : Nat) : Safe (execCrc16 data n s) := by
  unfold execCrc16
  split
  · exact .refused
  · exact .next (answer_inv h _)

/-! ### The host's turn -/

/-- What a symbol decodes to answers a value (R141). -/
theorem symbol_safe (h : Inv s) (c : BitVec 5) : Safe (exec (decodeSymbol c) s) := by
  unfold decodeSymbol
  split <;> exact .next (answer_inv h _)

theorem command_safe (h : Inv s) (hp : s.receivePending = false) {code : BitVec 4} {ops : Operands} {i : Instr}
    (hi : decodeCommand code ops = .ok i) : Safe (exec i s) := by
  unfold decodeCommand at hi
  split at hi
  · unfold decodeConfigure at hi
    split at hi <;> cases hi
    exact execConfigure_safe h hp _ _
  all_goals cases hi
  · exact execTransmit_safe h _ _
  · exact execReceive_safe h
  · exact .next { h with }
  · exact .next { h with }
  · exact .next { h with }
  · exact .next { h with }
  · exact .next { h with }
  · exact .refused

/-- An instruction that the host presents: a command, or a function that answers a value. -/
theorem hostInstr_safe (h : Inv s) (hp : s.receivePending = false) {c : HostCode} {i : Instr}
    (hi : decodeHost c = .ok i) : Safe (exec i s) := by
  cases c with
  | cmd code ops => exact command_safe h hp hi
  | symbol c => cases hi; exact symbol_safe h c
  | crc16 data n => cases hi; exact execCrc16_safe h data n
  | wire9 | wire11 | leadout9 | leadout11 =>
    simp only [decodeHost] at hi
    split at hi <;> cases hi
    exact .next (answer_inv h _)
  | _ => cases hi; exact .next (answer_inv h _)

theorem send_safe (h : Inv s) (dst : BitVec 16) (n : Nat) (data : List Byte) : Safe (send dst n data s) := by
  unfold send
  split
  · exact .next (reply_inv h _)
  · dsimp only
    split
    · exact .refused
    · exact execTransmit_safe h _ _

theorem recvPoll_safe (h : Inv s) : Safe (recvPoll s) := by
  have hreceive := execReceive_safe h
  unfold recvPoll
  split
  · rename_i u hu
    rw [hu] at hreceive
    refine .next ?_
    split
    · exact hreceive.inv
    · obtain ⟨r, a, hjudge⟩ := recvJudge_cases s.hostReturn u
      rw [hjudge]
      exact { hreceive.inv with }
  · exact hreceive

theorem recvStart_safe (h : Inv s) : Safe (recvStart s) := by
  unfold recvStart
  split
  · exact .next (reply_inv h _)
  · exact recvPoll_safe { h with }

theorem runCall_safe (h : Inv s) (hp : s.receivePending = false) (c : HostCall) : Safe (runCall c s) := by
  cases c with
  | code c =>
    cases hi : decodeHost c with
    | ok i => exact runCall_code (s := s) hi ▸ hostInstr_safe h hp hi
    | error e => simp only [runCall, hi]; exact .refused
  | send dst n data => exact send_safe h dst n data
  | recv => exact recvStart_safe h

theorem hostTurn_safe (h : Inv s) : Safe (hostTurn s) := by
  obtain ⟨-, he⟩ | ⟨-, -, he⟩ | ⟨-, -, -, he⟩ | ⟨-, -, hp, ⟨-, he⟩ | ⟨c, q, -, he⟩⟩ := hostTurn_cases s <;> rw [he]
  · exact .next h
  · exact recvPoll_safe h
  · exact execReceive_safe h
  · exact .next h
  · exact runCall_safe (s := { s with hostQueue := q }) { h with } hp c

/-! ### Steps and runs -/

theorem takeTurn_safe (h : Inv s) (u : Turn) : Safe (takeTurn u s) := by
  cases u with
  | tick b => exact runTick_safe h b
  | clock b => exact clockEdge_safe h b
  | host => exact hostTurn_safe h

theorem step_safe (h : Inv s) : Safe (step s) := by
  cases hs : s.schedule with
  | nil => exact step_nil hs ▸ .next h
  | cons u ts => exact step_cons hs ▸ takeTurn_safe (s := { s with schedule := ts }) { h with } u

/-- What every step passes on from a state to its outcome, every run passes on too. -/
theorem run_induction {M : Host.Core} {P : Host.Outcome M.State M.Fault M.Refusal → Prop}
    (hstep : ∀ s, P (.next s) → P (M.step s)) (k : Nat) {s : M.State} (h : P (.next s)) : P (M.run k s) := by
  induction k generalizing s with
  | zero => exact h
  | succ k ih =>
    have hs := hstep s h
    unfold Host.Core.run
    split <;> rename_i ho <;> rw [ho] at hs
    · exact ih hs
    · exact hs
    · exact hs

theorem run_safe (k : Nat) (h : Inv s) : Safe (Host.Core.run core k s) :=
  run_induction (M := core) (P := Safe) (fun _ hs => step_safe hs.inv) k (.next h)

theorem resetWith_inv {cfg : Config} (hc : cfg.Valid) : Inv (State.resetWith cfg) where
  cfgValid := hc
  bufferWf := resetWith_buffer_wf cfg
  lengthBound := Nat.zero_le _
  indexBound := Nat.zero_le _
  indexInFrame := nofun
  indexAfterFrame := nofun
  timerInPhase := nofun
  lockBound := Nat.zero_le _
  rxLengthPositive := nofun
  shiftWidth := Nat.two_pow_pos _
  compareWidth := Nat.two_pow_pos _
  tcntWidth := Nat.two_pow_pos _
  baudLegal := .inl rfl
  statesLegal := rfl
  enabledIffConfigured := ⟨nofun, fun hp => absurd rfl hp⟩
  noTickWaits := rfl
  pendingOnRx := nofun

theorem loaded_inv {cfg : Config} (hc : cfg.Valid) (calls : List HostCall) (turns : List Turn) (capacity : Nat) :
    Inv (loaded cfg calls turns capacity) := { resetWith_inv hc with }

end Sys2Proof.Machine

namespace Sys2Proof

open Sys2Proof.Machine

/-- Settles O6: the next state of a safe outcome meets the invariant. -/
theorem everyStepKeepsTheInvariant : Obligations.EveryStepKeepsTheInvariant := by
  unfold Obligations.EveryStepKeepsTheInvariant
  intro s t h hstep
  exact (hstep ▸ step_safe h).inv

/-- Settles O60: a safe outcome is no fault. -/
theorem noStepFromTheInvariantFaults : Obligations.NoStepFromTheInvariantFaults := by
  unfold Obligations.NoStepFromTheInvariantFaults
  intro s f h hstep
  exact (hstep ▸ step_safe h).not_fault

/-- Settles O7: the loaded reset state meets the invariant, and so does every state a run from it comes to. -/
theorem everyRunFromResetIsSafe : Obligations.EveryRunFromResetIsSafe := by
  unfold Obligations.EveryRunFromResetIsSafe
  intro cfg calls turns capacity k hc
  have hrun := run_safe k (loaded_inv hc calls turns capacity)
  exact ⟨fun f hf => (hf ▸ hrun).not_fault, fun t ht => (ht ▸ hrun).inv⟩

/-- Settles O4: every register is a field of the reset state, and its empty buffer reads 0. -/
theorem powerOnResetValues : Obligations.PowerOnResetValues := by
  unfold Obligations.PowerOnResetValues
  intro cfg
  exact ⟨rfl, rfl, Memory.read_nil, rfl, rfl, rfl, rfl, rfl, rfl, rfl, rfl, rfl, rfl, rfl, rfl, rfl, rfl, rfl⟩

/-- Settles O5: `State.reset` is the reset state of one valid parameter record. -/
theorem resetMeetsTheInvariant : Obligations.ResetMeetsTheInvariant := by
  unfold Obligations.ResetMeetsTheInvariant
  exact ⟨fun _ => resetWith_inv, resetWith_inv (by decide)⟩

end Sys2Proof
end

section
/-! Broken counters and indices fault (R51, R72; log 6). -/

namespace Sys2Proof.Machine

open Sys2Proof

variable {s : State} {finish : State → Host.Outcome State Fault Refusal}

theorem txSlot_broken {w : BitVec 11} (h : s.bitTimer = 0 ∨ s.cfg.tbyte < s.bitTimer) :
    txSlot w finish s = .fault .unreachableState := by
  simp only [txSlot, slotTick_broken h]

theorem rxSlot_broken {fin : Byte → State → Host.Outcome State Fault Refusal}
    (h : s.bitTimer = 0 ∨ s.cfg.tbyte < s.bitTimer) : rxSlot fin s = .fault .unreachableState := by
  simp only [rxSlot, slotTick_broken h]

/-- The slot rules fault on a broken counter, whatever else the state holds. -/
theorem slotRule_broken {i : Instr}
    (hi : i = .txPayload ∨ i = .txData ∨ i = .txLeadout ∨ i = .rxPayload ∨ i = .rxData ∨ i = .rxLeadout)
    (h : s.bitTimer = 0 ∨ s.cfg.tbyte < s.bitTimer) : exec i s = .fault .unreachableState := by
  obtain rfl | rfl | rfl | rfl | rfl | rfl := hi
  · exact txSlot_broken h
  · show execTxData s = _
    unfold execTxData
    split
    · rfl
    · exact txSlot_broken h
  · exact txSlot_broken h
  · exact rxSlot_broken (s := s.beginRx) h
  · exact rxSlot_broken (s := s.beginRx) h
  · exact rxSlot_broken (s := s.beginRx) h

/-- The rules of a timed phase without slots fault on a stopped counter. -/
theorem countdownRule_stopped {i : Instr} (hi : i = .txStrobe ∨ i = .txSync ∨ i = .rxSync) (h : s.bitTimer = 0) :
    exec i s = .fault .unreachableState := by
  obtain rfl | rfl | rfl := hi
  · show execTxStrobe s = _
    exact countdown_stopped h
  · show execTxSync s = _
    exact countdown_stopped h
  · show execRxSync s = _
    exact countdown_stopped h

theorem execTxData_index (h : maxFrameSize ≤ s.byteIndex.toNat) : execTxData s = .fault .unreachableState := by
  simp only [execTxData, bufRead_of_ge h]

theorem finishRxData_index (v : Byte) (h : maxFrameSize ≤ s.byteIndex.toNat) :
    finishRxData v s = .fault .unreachableState := by
  simp only [finishRxData, bufWrite_of_ge h]

/-- The last tick of an RX DATA slot stores at `byteIndex`; with TBYTE 0 its counter is broken already. -/
theorem execRxData_index (h : maxFrameSize ≤ s.byteIndex.toNat) (h1 : s.bitTimer = 1) :
    execRxData s = .fault .unreachableState := by
  rcases Nat.lt_or_ge s.cfg.tbyte 1 with h0 | hpos
  · exact rxSlot_broken (s := s.beginRx) (.inr (h0.trans_eq h1.symm))
  · have htick : slotTick s.beginRx = some (s.cfg.tbyte - 1) := by
      have hb := slotTick_of_bounds (s := s.beginRx) h1.ge (h1.le.trans hpos)
      rwa [State.beginRx_cfg, State.beginRx_bitTimer, h1] at hb
    obtain ⟨r, p, he⟩ := rxSample_cases (s.cfg.tbyte - 1) s.beginRx.lineIn s.beginRx
    simp only [execRxData, rxSlot, htick, he, State.beginRx_bitTimer, if_pos h1]
    exact finishRxData_index _ h

theorem receiveCritical_length (h : maxFrameSize < s.payloadLength.toNat) (he : s.st ≠ .error) :
    receiveCritical s = .fault .unreachableState := by
  rw [receiveCritical, if_neg he, if_pos h]

/-- A RECEIVE between its phases goes on with the critical one. -/
theorem execReceive_pending (h : s.receivePending = true) : execReceive s = receiveCritical s := if_pos h

/-- Without RECV_OVERWRITE a RECEIVE in RECV runs both phases at once (log 4). -/
theorem execReceive_merged (hp : s.receivePending = false) (hd : s.dir = .receive) (hs : s.st = .recv)
    (ho : s.cfg.recvOverwrite = false) : execReceive s = receiveCritical s := by
  have hcheck : receiveCheck s = none := by simp [receiveCheck, hd, hs]
  simp [execReceive, receiveCheckPhase, hp, hcheck, ho]

end Sys2Proof.Machine

namespace Sys2Proof

open Sys2Proof.Machine

/-- Settles O14: by the shared operation that meets the broken counter or index. -/
theorem brokenCountersAndIndicesFault : Obligations.BrokenCountersAndIndicesFault := by
  unfold Obligations.BrokenCountersAndIndicesFault
  intro s i
  refine ⟨fun hi h0 => ?_, fun hi h => slotRule_broken hi (.inr h), execTxData_index, execRxData_index, ?_, ?_⟩
  · by_cases hc : i = .txStrobe ∨ i = .txSync ∨ i = .rxSync
    · exact countdownRule_stopped hc h0
    · exact slotRule_broken (by tauto) (.inl h0)
  · intro hlen hp he
    exact (execReceive_pending hp).trans (receiveCritical_length hlen he)
  · intro hlen hp hd hs ho
    exact (execReceive_merged hp hd hs ho).trans (receiveCritical_length hlen (by rw [hs]; decide))

end Sys2Proof
end

section
/-! Which instructions write each register (R50): for the transmit ticks and for the receive ticks, the fields in which the
next state can differ, and which rules of the group write the fields that not all of them write. -/

namespace Sys2Proof.Machine

open Sys2Proof

variable {s t : State}

/-- A transmit tick writes `st`, `bitTimer`, `lineOut`, `activity`, and `byteIndex` in PAYLOAD and DATA. -/
theorem txTick_writes {i : Instr} (hi : i.isTxTick = true) (h : exec i s = .next t) :
    ∃ st bi n o a, t = { s with st := st, byteIndex := bi, bitTimer := n, lineOut := o, activity := a } ∧
      (bi ≠ s.byteIndex → i = .txPayload ∨ i = .txData) := by
  cases i with
  | txReady | txStart =>
    cases h
    exact ⟨_, _, _, _, _, rfl, (absurd rfl ·)⟩
  | txStrobe =>
    obtain ⟨-, rfl⟩ | ⟨-, hfin⟩ := countdown_cases (show execTxStrobe s = .next t from h)
    · exact ⟨_, _, _, _, _, rfl, (absurd rfl ·)⟩
    · cases hfin
      exact ⟨_, _, _, _, _, rfl, (absurd rfl ·)⟩
  | txSync =>
    obtain ⟨-, rfl⟩ | ⟨-, hfin⟩ := countdown_cases (show execTxSync s = .next t from h)
    · exact ⟨_, _, _, _, _, rfl, (absurd rfl ·)⟩
    · cases hfin
      exact ⟨_, _, _, _, _, rfl, (absurd rfl ·)⟩
  | txPayload =>
    obtain ⟨-, ⟨-, rfl⟩ | ⟨-, hfin⟩⟩ := txSlot_cases h
    · exact ⟨_, _, _, _, _, rfl, fun _ => .inl rfl⟩
    · cases hfin
      exact ⟨_, _, _, _, _, rfl, fun _ => .inl rfl⟩
  | txData =>
    replace h : execTxData s = .next t := h
    unfold execTxData at h
    split at h
    · cases h
    · obtain ⟨-, ⟨-, rfl⟩ | ⟨-, hfin⟩⟩ := txSlot_cases h
      · exact ⟨_, _, _, _, _, rfl, fun _ => .inr rfl⟩
      · cases hfin
        exact ⟨_, _, _, _, _, rfl, fun _ => .inr rfl⟩
  | txLeadout =>
    obtain ⟨-, ⟨-, rfl⟩ | ⟨-, hfin⟩⟩ := txSlot_cases h
    · exact ⟨_, _, _, _, _, rfl, (absurd rfl ·)⟩
    · cases hfin
      exact ⟨_, _, _, _, _, rfl, (absurd rfl ·)⟩
  | _ => cases hi

theorem lockStep_writes (b : Bool) (s : State) :
    ∃ st n c, lockStep b s = { s with st := st, bitTimer := n, lockCount := c } := by
  cases b with
  | true => exact ⟨_, _, _, lockStep_one s⟩
  | false =>
    by_cases hl : s.lockCount = s.cfg.nSync / 2
    · exact ⟨_, _, _, lockStep_lock hl⟩
    · exact ⟨_, _, _, lockStep_reset hl⟩

theorem finishRxPayload_writes {v : Byte} (h : finishRxPayload v s = .next t) :
    ∃ st n len bi a, t = { s with st := st, bitTimer := n, payloadLength := len, byteIndex := bi, activity := a } := by
  unfold finishRxPayload at h
  split at h <;> cases h <;> exact ⟨_, _, _, _, _, rfl⟩

theorem finishRxData_writes {v : Byte} (h : finishRxData v s = .next t) :
    ∃ st n buf bi, t = { s with st := st, bitTimer := n, frameBuffer := buf, byteIndex := bi } := by
  unfold finishRxData at h
  rcases Nat.lt_or_ge s.byteIndex.toNat maxFrameSize with hi | hi
  · rw [bufWrite_of_lt hi] at h
    cases h
    exact ⟨_, _, _, _, rfl⟩
  · rw [bufWrite_of_ge hi] at h
    cases h

/-- A tick of an RX slot writes `bitTimer`, `shiftReg`, `phaseReq`, or what the slot's end writes after its sample. -/
theorem rxSlot_writes {fin : Byte → State → Host.Outcome State Fault Refusal} (h : rxSlot fin s.beginRx = .next t) :
    ∃ r p, (∃ n, t = { s with bitTimer := n, shiftReg := r, phaseReq := p }) ∨
      ∃ v, fin v { s with shiftReg := r, phaseReq := p } = .next t := by
  obtain ⟨-, ⟨-, rfl⟩ | ⟨-, hfin⟩⟩ := rxSlot_cases h
  · obtain ⟨r, p, he⟩ := rxSample_cases (s.cfg.tbyte - s.bitTimer) s.lineIn s.beginRx
    exact ⟨r, p, .inl ⟨_, congrArg (fun u : State => { u with bitTimer := s.bitTimer - 1 }) he⟩⟩
  · obtain ⟨r, p, he⟩ := rxSample_cases (s.cfg.tbyte - 1) s.lineIn s.beginRx
    exact ⟨r, p, .inr ⟨_, he ▸ hfin⟩⟩

/-- A receive tick writes `st`, `bitTimer`, `activity`, `lockCount`, `shiftReg`, `phaseReq`, and besides `payloadLength` and
`byteIndex` in PAYLOAD, the frame buffer and `byteIndex` in DATA. -/
theorem rxTick_writes {i : Instr} (hi : i.isRxTick = true) (h : exec i s = .next t) :
    ∃ st buf len bi n a c r p,
      t = { s with
        st := st, frameBuffer := buf, payloadLength := len, byteIndex := bi, bitTimer := n, activity := a
        lockCount := c, shiftReg := r, phaseReq := p } ∧
      (buf ≠ s.frameBuffer → i = .rxData) ∧ (len ≠ s.payloadLength → i = .rxPayload) ∧
      (bi ≠ s.byteIndex → i = .rxPayload ∨ i = .rxData) := by
  cases i with
  | rxStart | rxError =>
    cases h
    exact ⟨_, _, _, _, _, _, _, _, _, rfl, (absurd rfl ·), (absurd rfl ·), (absurd rfl ·)⟩
  | rxReady =>
    cases h
    obtain ⟨_, _, _, he⟩ := lockStep_writes s.lineIn s.beginRx
    exact ⟨_, _, _, _, _, _, _, _, _, he, (absurd rfl ·), (absurd rfl ·), (absurd rfl ·)⟩
  | rxRecv =>
    replace h : execRxRecv s = .next t := h
    unfold execRxRecv at h
    split at h <;> cases h
    · obtain ⟨_, _, _, he⟩ := lockStep_writes s.lineIn s.beginRx
      exact ⟨_, _, _, _, _, _, _, _, _, he, (absurd rfl ·), (absurd rfl ·), (absurd rfl ·)⟩
    · exact ⟨_, _, _, _, _, _, _, _, _, rfl, (absurd rfl ·), (absurd rfl ·), (absurd rfl ·)⟩
  | rxSync =>
    obtain ⟨-, rfl⟩ | ⟨-, hfin⟩ := countdown_cases (show execRxSync s = .next t from h)
    · exact ⟨_, _, _, _, _, _, _, _, _, rfl, (absurd rfl ·), (absurd rfl ·), (absurd rfl ·)⟩
    · cases hfin
      exact ⟨_, _, _, _, _, _, _, _, _, rfl, (absurd rfl ·), (absurd rfl ·), (absurd rfl ·)⟩
  | rxPayload =>
    obtain ⟨_, _, ⟨_, rfl⟩ | ⟨_, hfin⟩⟩ := rxSlot_writes h
    · exact ⟨_, _, _, _, _, _, _, _, _, rfl, (absurd rfl ·), fun _ => rfl, fun _ => .inl rfl⟩
    · obtain ⟨_, _, _, _, _, rfl⟩ := finishRxPayload_writes hfin
      exact ⟨_, _, _, _, _, _, _, _, _, rfl, (absurd rfl ·), fun _ => rfl, fun _ => .inl rfl⟩
  | rxData =>
    obtain ⟨_, _, ⟨_, rfl⟩ | ⟨_, hfin⟩⟩ := rxSlot_writes h
    · exact ⟨_, _, _, _, _, _, _, _, _, rfl, fun _ => rfl, (absurd rfl ·), fun _ => .inr rfl⟩
    · obtain ⟨_, _, _, _, rfl⟩ := finishRxData_writes hfin
      exact ⟨_, _, _, _, _, _, _, _, _, rfl, fun _ => rfl, (absurd rfl ·), fun _ => .inr rfl⟩
  | rxLeadout =>
    obtain ⟨_, _, ⟨_, rfl⟩ | ⟨_, hfin⟩⟩ := rxSlot_writes h
    · exact ⟨_, _, _, _, _, _, _, _, _, rfl, (absurd rfl ·), (absurd rfl ·), (absurd rfl ·)⟩
    · cases hfin
      exact ⟨_, _, _, _, _, _, _, _, _, rfl, (absurd rfl ·), (absurd rfl ·), (absurd rfl ·)⟩
  | _ => cases hi

/-- RECEIVE writes `st` and, outside the registers, where it stands and what it returns. -/
theorem execReceive_writes (h : execReceive s = .next t) :
    ∃ st p r, t = { s with st := st, receivePending := p, hostReturn := r } := by
  obtain ⟨-, _, rfl⟩ | ⟨-, -, -, rfl⟩ | ⟨-, -, -, -, rfl⟩ | ⟨-, hcrit⟩ := execReceive_cases h
  · exact ⟨_, _, _, rfl⟩
  · exact ⟨_, _, _, rfl⟩
  · exact ⟨_, _, _, rfl⟩
  · obtain ⟨-, rfl⟩ | ⟨-, -, -, rfl⟩ := receiveCritical_cases hcrit <;> exact ⟨_, _, _, rfl⟩

theorem execCrc16_writes {data : List Byte} {n : Nat} (h : execCrc16 data n s = .next t) :
    ∃ r, t = { s with hostReturn := r } := by
  unfold execCrc16 at h
  split at h <;> cases h
  exact ⟨_, rfl⟩

end Sys2Proof.Machine

namespace Sys2Proof

open Sys2Proof.Machine

/-- Settles O9: by the group of the instruction. The last arm holds the instructions that write one register or none,
whatever the state, and those that fault or are refused. -/
theorem onlyTheListedInstructionsWriteEachRegister : Obligations.OnlyTheListedInstructionsWriteEachRegister := by
  unfold Obligations.OnlyTheListedInstructionsWriteEachRegister
  intro i s t h
  by_cases htx : i.isTxTick = true
  · obtain ⟨_, bi, _, _, _, rfl, hbi⟩ := txTick_writes htx h
    have hindex : bi ≠ s.byteIndex → i = .txPayload ∨ i = .txData ∨ i = .rxPayload ∨ i = .rxData := fun hne =>
      (hbi hne).imp_right .inl
    simpa [htx] using hindex
  by_cases hrx : i.isRxTick = true
  · obtain ⟨_, buf, len, bi, _, _, _, _, _, rfl, hbuf, hlen, hbi⟩ := rxTick_writes hrx h
    have hbuffer : buf ≠ s.frameBuffer → i = .rxData ∨ ∃ n data, i = .transmit n data := fun hne => .inl (hbuf hne)
    have hlength : len ≠ s.payloadLength → i = .rxPayload ∨ ∃ n data, i = .transmit n data := fun hne =>
      .inl (hlen hne)
    have hindex : bi ≠ s.byteIndex → i = .txPayload ∨ i = .txData ∨ i = .rxPayload ∨ i = .rxData := fun hne =>
      .inr (.inr (hbi hne))
    simpa [hrx] using ⟨hbuffer, hlength, hindex⟩
  cases i with
  | txReady | txStart | txStrobe | txSync | txPayload | txData | txLeadout => exact absurd rfl htx
  | rxReady | rxStart | rxSync | rxPayload | rxData | rxLeadout | rxRecv | rxError => exact absurd rfl hrx
  | idle => obtain ⟨-, rfl⟩ := execIdle_cases h; simp
  | configure => obtain ⟨-, ⟨-, rfl⟩ | ⟨-, -, _, -, rfl⟩⟩ := execConfigure_cases h <;> simp
  | transmit => obtain ⟨_, rfl⟩ | ⟨-, -, -, rfl⟩ := execTransmit_cases h <;> simp
  | receive => obtain ⟨_, _, _, rfl⟩ := execReceive_writes h; simp
  | crc16 => obtain ⟨_, rfl⟩ := execCrc16_writes h; simp
  | _ => cases h <;> simp

end Sys2Proof
end

section
/-! Codes and the rows they stand for (R90 to R104), and the turns that run a decoded instruction (R81, R100, R102). -/

namespace Sys2Proof.Machine

open Sys2Proof

variable {s : State}

theorem decodeTick_reserved (st : LinkState) : decodeTick (dispatchKey .reserved st) = .reservedDir3 st.code := by
  simp only [decodeTick, dispatchKey_fields, Dir.ofCode_code]

theorem hostTurn_pending (hs : s.spin = none) (ha : s.recvActive = false) (hp : s.receivePending = true) :
    hostTurn s = exec .receive s := by simp [hostTurn, hs, ha, hp]

theorem hostTurn_no_call (hs : s.spin = none) (ha : s.recvActive = false) (hp : s.receivePending = false)
    (hq : s.hostQueue = []) : hostTurn s = .next s := by simp [hostTurn, hs, ha, hp, hq]

theorem hostTurn_call (hs : s.spin = none) (ha : s.recvActive = false) (hp : s.receivePending = false) {c : HostCall}
    {q : List HostCall} (hq : s.hostQueue = c :: q) : hostTurn s = runCall c { s with hostQueue := q } := by
  simp [hostTurn, hs, ha, hp, hq]

theorem runCall_rejected {h : HostCode} {e : DecodeError} (he : decodeHost h = .error e) :
    runCall (.code h) s = .refused (.undecodable e) := by simp only [runCall, he]

theorem exec_idle_used (k : BitVec 4) (h : s.st.code.toNat < 9) : exec (.idle k) s = .next s := if_neg (Nat.not_le.2 h)

end Sys2Proof.Machine

namespace Sys2Proof

open Sys2Proof.Machine

/-- Settles O2: by the round trip of each row whose code packs an operand between fixed bits, is checked by the decoder, or
depends on the coding mode. The code of every other row is written out, or is the operand itself, so decoding evaluates. -/
theorem decodeOfEncodeIsTheInstruction : Obligations.DecodeOfEncodeIsTheInstruction := by
  unfold Obligations.DecodeOfEncodeIsTheInstruction
  intro cfg i h
  cases i with
  | idle st => exact Laws.RoundTrip.idle st cfg h
  | txUnreachableHigh low => exact Laws.RoundTrip.txUnreachableHigh low cfg h
  | reservedDir3 st => exact Laws.RoundTrip.reservedDir3 st cfg h
  | configure rate d => exact Laws.RoundTrip.configure rate d cfg h
  | reservedCmd low => exact Laws.RoundTrip.reservedCmd low cfg h
  | wireRaw b => exact Laws.RoundTrip.wireRaw b cfg h
  | wireBalanced hi lo => exact Laws.RoundTrip.wireBalanced hi lo cfg h
  | wireLeadout => exact Laws.RoundTrip.wireLeadout cfg h
  | lc5Invalid c => exact Laws.RoundTrip.lc5Invalid c cfg h
  | _ => rfl

/-- Settles O1: each word is a literal, so the decoder evaluates on it. -/
theorem tableWordsDecodeToTheirRows : Obligations.TableWordsDecodeToTheirRows := by
  unfold Obligations.TableWordsDecodeToTheirRows
  exact ⟨rfl, rfl, rfl, rfl, rfl, rfl, rfl, rfl, rfl, rfl, rfl, rfl, rfl, rfl⟩

/-- Settles O3: the direction bits choose the table's block of sixteen keys; inside it the state code is a literal. -/
theorem dispatchFollowsTheKeyTable : Obligations.DispatchFollowsTheKeyTable := by
  unfold Obligations.DispatchFollowsTheKeyTable
  refine ⟨decodeTick_none, rfl, rfl, rfl, rfl, rfl, rfl, rfl, rfl, rfl, by decide, ?_⟩
  exact ⟨rfl, rfl, rfl, rfl, rfl, rfl, rfl, rfl, rfl, rfl, rfl, rfl, rfl, rfl, rfl, rfl, decodeTick_reserved⟩

/-- Settles O10: the turn is a firing of the tick source, which runs the key's rule or is masked. -/
theorem tickTurnRunsTheRuleOfTheKey : Obligations.TickTurnRunsTheRuleOfTheKey := by
  unfold Obligations.TickTurnRunsTheRuleOfTheKey
  intro s b ts hturn
  rw [step_cons hturn]
  exact ⟨runTick_enabled (s := { s with schedule := ts }) b, fun hoff => runTick_masked b (.inl hoff)⟩

/-- Settles O11: by what the host agent does next, and by the kind of the oldest waiting call. -/
theorem hostTurnRunsTheDecodedInstruction : Obligations.HostTurnRunsTheDecodedInstruction := by
  unfold Obligations.HostTurnRunsTheDecodedInstruction
  intro s ts hturn
  rw [step_cons hturn]
  refine ⟨rfl, fun hspin hidle => ⟨hostTurn_pending (s := { s with schedule := ts }) hspin hidle, fun hnew =>
    ⟨hostTurn_no_call (s := { s with schedule := ts }) hspin hidle hnew, fun c q hqueue => ?_⟩⟩⟩
  have hcall := hostTurn_call (s := { s with schedule := ts }) hspin hidle hnew hqueue
  refine ⟨?_, ?_, ?_, ?_⟩
  · rintro h i rfl hdec
    exact hcall.trans (runCall_code hdec)
  · rintro h e rfl hdec
    exact hcall.trans (runCall_rejected hdec)
  · rintro dst length data rfl
    exact hcall
  · rintro rfl
    exact hcall

/-- Settles O12: the key `00 xxxx` selects IDLE, which changes nothing in a state code below 9; reset disables the ticks. -/
theorem idleTickChangesNoRegister : Obligations.IdleTickChangesNoRegister := by
  unfold Obligations.IdleTickChangesNoRegister
  refine ⟨fun k => Except.ok.inj (Laws.RoundTrip.idle k Config.rawTest rfl), fun k _ => exec_idle_used k, ?_,
    fun b _ => runTick_masked b (.inl rfl)⟩
  intro b s hdir hst hon hspin
  have hkey : decodeTick s.key = .idle s.st.code := by rw [State.key, hdir, decodeTick_none]
  rw [runTick_enabled b hon hspin, hkey]
  exact exec_idle_used (s := tickEntry b s) _ hst

end Sys2Proof
end

section
/-! The rows of the line code and of the wire words (R90 to R96, R141, R143, R145; log 10). -/

namespace Sys2Proof.Machine

open Sys2Proof

/-! ### The line code -/

/-- A line code onto CODESET, which has as many symbols as there are nibbles, gives each of them to some nibble (R93). -/
theorem mem_lineCode {lc : LineCode} (h : lc.Bijective) {c : BitVec 5} (hc : c ∈ codeSet) : ∃ n : Fin 16, lc[n] = c := by
  obtain ⟨hmem, hinj⟩ := h
  have himage : Finset.univ.image (fun n : Fin 16 => lc[n]) = codeSet.toFinset := by
    refine Finset.eq_of_subset_of_card_le (fun x hx => ?_) ?_
    · obtain ⟨n, -, rfl⟩ := Finset.mem_image.1 hx
      exact List.mem_toFinset.2 (hmem n)
    · rw [Finset.card_image_of_injective _ fun m n => hinj m n]
      decide
  obtain ⟨n, -, hn⟩ := Finset.mem_image.1 (himage ▸ List.mem_toFinset.2 hc)
  exact ⟨n, hn⟩

/-- LC_DEC answers the nibble whose code the symbol is (R141). -/
theorem getElem_lcDecode {lc : LineCode} (h : lc.Bijective) {c : BitVec 5} (hc : c ∈ codeSet) :
    lc[(lcDecode lc c).toNat] = c := by
  obtain ⟨n, hn⟩ := mem_lineCode h hc
  have hmem : c ∈ lc.toList := hn ▸ Vector.mem_toList_iff.2 (Vector.getElem_mem n.isLt)
  have hlt : lc.toList.idxOf c < 16 := by
    simpa using List.idxOf_lt_length_of_mem hmem
  have hplace : (lcDecode lc c).toNat = lc.toList.idxOf c := by
    rw [lcDecode, if_pos hc, BitVec.toNat_ofNat, Nat.mod_eq_of_lt hlt]
  simp only [hplace]
  exact List.getElem_idxOf _

theorem lcDecode_invalid (lc : LineCode) {c : BitVec 5} (h : c ∉ codeSet) : lcDecode lc c = 0 := if_neg h

theorem lcEncode_mem {lc : LineCode} (h : lc.Bijective) (n : BitVec 4) : lcEncode lc n ∈ codeSet := h.1 n.toFin

/-! ### Runs of equal bits -/

/-- No symbol of CODESET has three equal bits in a row (R92). -/
theorem codeSet_no_run_of_three :
    ∀ c ∈ codeSet, ∀ i, i < 3 → ¬ (c.getLsbD i = c.getLsbD (i + 1) ∧ c.getLsbD (i + 1) = c.getLsbD (i + 2)) := by
  decide

/-- The bits of a BALANCED wire word: the low symbol's, then the high symbol's (R94). -/
theorem getLsbD_balanced (h l : BitVec 5) {i : Nat} (hi : i < 5) :
    (0b1#1 ++ h ++ l).getLsbD i = l.getLsbD i ∧ (0b1#1 ++ h ++ l).getLsbD (i + 5) = h.getLsbD i := by
  constructor
  · rw [BitVec.getLsbD_append, if_pos hi]
  · rw [BitVec.getLsbD_append, if_neg (by omega), Nat.add_sub_cancel, BitVec.getLsbD_append, if_pos hi]

/-- Five bits in a row of a BALANCED wire word hold three in a row of one of its symbols: from bit 0, 1 or 2 of the low
one, from bit 0, 0, 0 or 1 of the high one. So they are not equal (R145). -/
theorem balanced_no_run_of_five {h l : BitVec 5} (hh : h ∈ codeSet) (hl : l ∈ codeSet) {i : Nat} (hi : i < 7) :
    let w := 0b1#1 ++ h ++ l
    ¬ (w.getLsbD i = w.getLsbD (i + 1) ∧ w.getLsbD (i + 1) = w.getLsbD (i + 2) ∧
      w.getLsbD (i + 2) = w.getLsbD (i + 3) ∧ w.getLsbD (i + 3) = w.getLsbD (i + 4)) := by
  rintro w ⟨h01, h12, h23, h34⟩
  have equal : ∀ k, i ≤ k → k ≤ i + 4 → w.getLsbD k = w.getLsbD i := by
    intro k hik hki
    obtain rfl | rfl | rfl | rfl | rfl : k = i ∨ k = i + 1 ∨ k = i + 2 ∨ k = i + 3 ∨ k = i + 4 := by omega
    all_goals simp only [h01, h12, h23, h34]
  have low : ∀ k, k < 5 → i ≤ k → k ≤ i + 4 → l.getLsbD k = w.getLsbD i := fun k hk hik hki =>
    (getLsbD_balanced h l hk).1.symm.trans (equal k hik hki)
  have high : ∀ k, k < 5 → i ≤ k + 5 → k + 5 ≤ i + 4 → h.getLsbD k = w.getLsbD i := fun k hk hik hki =>
    (getLsbD_balanced h l hk).2.symm.trans (equal (k + 5) hik hki)
  rcases Nat.lt_or_ge i 3 with hlow | hhigh
  · refine codeSet_no_run_of_three l hl i hlow ⟨?_, ?_⟩
    · rw [low i, low (i + 1)] <;> omega
    · rw [low (i + 1), low (i + 2)] <;> omega
  · refine codeSet_no_run_of_three h hh (i - 5) (by omega) ⟨?_, ?_⟩
    · rw [high (i - 5), high (i - 5 + 1)] <;> omega
    · rw [high (i - 5 + 1), high (i - 5 + 2)] <;> omega

/-! ### Wire words and their slots -/

/-- Appending adds: the low word's bits below the high word's. -/
theorem toNat_append_eq_add {m n : Nat} (x : BitVec m) (y : BitVec n) : (x ++ y).toNat = 2 ^ n * x.toNat + y.toNat := by
  rw [BitVec.toNat_append, Nat.shiftLeft_eq, Nat.mul_comm, Nat.two_pow_add_eq_or_of_lt y.isLt]

theorem rawWord_toNat (b : Byte) : ((0b1#1 ++ b).zeroExtend 11).toNat = 0x100 + b.toNat := by
  have happend : (0b1#1 ++ b).toNat = 0x100 + b.toNat := toNat_append_eq_add (0b1#1) b
  rw [BitVec.toNat_setWidth, happend, Nat.mod_eq_of_lt (by omega)]

theorem balancedWord_toNat (h l : BitVec 5) : (0b1#1 ++ h ++ l).toNat = 0x400 + 32 * h.toNat + l.toNat := by
  rw [toNat_append_eq_add, toNat_append_eq_add, Nat.mul_add]
  rfl

theorem leadoutWord_toNat (cfg : Config) : (leadoutWord cfg).toNat = 2 ^ (cfg.coding.wireLength - 1) := by
  unfold leadoutWord
  cases cfg.coding <;> rfl

theorem slotLevels_length (cfg : Config) (len : Nat) (w : BitVec 11) : (slotLevels cfg len w).length = cfg.tbyte := by
  simp [slotLevels]

/-- The level of slot tick `k` is bit `len-1-k` of the word, then 0 (R96). -/
theorem slotLevels_getD (cfg : Config) (len : Nat) (w : BitVec 11) {k : Nat} (hk : k < cfg.tbyte) :
    (slotLevels cfg len w).getD k false = (decide (k < len) && w.toNat.testBit (len - 1 - k)) := by
  have hlevel : (slotLevels cfg len w).getD k false = slotBitAs len w k := by simp [slotLevels, hk]
  rw [hlevel, slotBitAs, BitVec.testBit_toNat]
  by_cases hlt : k < len
  · simp [hlt]
  · simp [hlt]

/-- A RAW wire word decodes to its byte (R91, R143). -/
theorem wireDecodeAs_rawWord (lc : LineCode) (b : Byte) :
    wireDecodeAs .raw lc (dataBits 9 ((0b1#1 ++ b).zeroExtend 11)) = b := by
  apply BitVec.eq_of_toNat_eq
  simp only [wireDecodeAs, dataBits, rawWord_toNat, BitVec.extractLsb'_toNat, BitVec.toNat_ofNat]
  omega

/-- The data bits of a BALANCED wire word are its two symbols (R94). -/
theorem dataBits_balancedWord (h l : BitVec 5) : dataBits 11 (0b1#1 ++ h ++ l) = h ++ l := by
  apply BitVec.eq_of_toNat_eq
  simp only [dataBits, BitVec.toNat_ofNat, toNat_append_eq_add]
  omega

/-- A BALANCED wire word decodes to the nibbles of its symbols (R94, R143). -/
theorem wireDecodeAs_balancedWord (lc : LineCode) (h l : BitVec 5) :
    wireDecodeAs .balanced lc (dataBits 11 (0b1#1 ++ h ++ l)) = lcDecode lc h ++ lcDecode lc l := by
  have hhigh : (h ++ l).extractLsb' 5 5 = h := BitVec.extractLsb'_append_eq_left
  have hlow : (h ++ l).extractLsb' 0 5 = l := Laws.append_low h l
  rw [dataBits_balancedWord, wireDecodeAs, hhigh, hlow]

/-- The leadout word has no data bit set, and symbol 0 is outside CODESET, so it decodes to 0 in either mode. -/
theorem wireDecodeAs_leadoutWord (cfg : Config) :
    wireDecodeAs cfg.coding cfg.lc (dataBits cfg.coding.wireLength (leadoutWord cfg)) = 0 := by
  have hzero : ∀ lc, wireDecodeAs .balanced lc 0 = 0 := fun lc => by
    have hsymbol : lcDecode lc 0 = 0 := lcDecode_invalid lc (by decide)
    show (lcDecode lc 0 ++ lcDecode lc 0 : Byte) = 0
    rw [hsymbol]
    rfl
  unfold leadoutWord
  cases cfg.coding with
  | raw => rfl
  | balanced => exact hzero cfg.lc

/-- What a wire-word row hands to the host, with the byte its word decodes to (log 10). -/
theorem answer_slotInfo {coding : Coding} {w : BitVec 11} {b : Byte} (s : State)
    (h : wireDecodeAs coding s.cfg.lc (dataBits coding.wireLength w) = b) :
    s.answer (slotInfo s.cfg coding w) =
      { s with hostReturn := { code := none, info := .slot w (slotLevels s.cfg coding.wireLength w) b } } := by
  rw [slotInfo, h]
  rfl

end Sys2Proof.Machine

namespace Sys2Proof

open Sys2Proof.Machine

/-- Settles O45: the symbols by inspection, the wire words from their symbols. -/
theorem balancedWordsHaveNoRunOfFive : Obligations.BalancedWordsHaveNoRunOfFive := by
  unfold Obligations.BalancedWordsHaveNoRunOfFive
  exact ⟨codeSet_no_run_of_three, fun lc b hlc i hi =>
    balanced_no_run_of_five (lcEncode_mem hlc _) (lcEncode_mem hlc _) hi⟩

/-- Settles O43: a row evaluates LC_DEC on its symbol, which is one of CODESET. -/
theorem symbolRowsAnswerTheirNibble : Obligations.SymbolRowsAnswerTheirNibble := by
  unfold Obligations.SymbolRowsAnswerTheirNibble
  intro s hlc
  refine ⟨fun row hrow => ?_, fun c hc => ?_⟩
  · have hsymbol : ∃ c ∈ codeSet, exec row.1 s = .next (s.answer (.nibble (lcDecode s.cfg.lc c))) ∧
        c.toNat = row.2.2 ∧ (lcDecode ascendingCode c).toNat = row.2.1 := by
      fin_cases hrow <;> exact ⟨BitVec.ofNat 5 _, by decide, rfl, rfl, rfl⟩
    obtain ⟨c, hc, hexec, hcode, hplace⟩ := hsymbol
    refine ⟨lcDecode s.cfg.lc c, hexec, ?_, fun hasc => ?_⟩
    · rw [getElem_lcDecode hlc hc, hcode]
    · rw [hasc, hplace]
  · rw [← lcDecode_invalid s.cfg.lc hc]
    rfl

/-- Settles O44: by the word of each row, its slot's levels and the byte it decodes to. -/
theorem wireWordRowsAnswerTheirSlot : Obligations.WireWordRowsAnswerTheirSlot := by
  unfold Obligations.WireWordRowsAnswerTheirSlot
  intro s isSlot
  have hslot : ∀ len (w : BitVec 11), isSlot len w.toNat (slotLevels s.cfg len w) := fun len w =>
    ⟨slotLevels_length s.cfg len w, fun _ => slotLevels_getD s.cfg len w⟩
  refine ⟨fun b => ⟨_, slotLevels s.cfg 9 _, ?_, rawWord_toNat b, hslot 9 _⟩,
    fun h l => ⟨_, slotLevels s.cfg 11 _, _, ?_, balancedWord_toNat h l, hslot 11 _,
      toNat_append_eq_add (lcDecode s.cfg.lc h) (lcDecode s.cfg.lc l)⟩,
    leadoutWord s.cfg, slotLevels s.cfg _ _, ?_, leadoutWord_toNat s.cfg, hslot _ _⟩
  · exact congrArg Host.Outcome.next (answer_slotInfo s (wireDecodeAs_rawWord s.cfg.lc b))
  · exact congrArg Host.Outcome.next (answer_slotInfo s (wireDecodeAs_balancedWord s.cfg.lc h l))
  · exact congrArg Host.Outcome.next (answer_slotInfo s (wireDecodeAs_leadoutWord s.cfg))

end Sys2Proof
end

section
/-! The frame a Transmit link puts on the line (R99, R161 to R167): where in its frame the link stands after `j` ticks
(`TxAt`), what one tick makes of that, and the level it drives. -/

namespace Sys2Proof.Machine

open Sys2Proof

/-! ### The slots of a frame -/

/-- The state in which a frame of `n` bytes sends slot `i`: the count, the bytes, the leadout. -/
def slotState (n i : Nat) : LinkState := if i = 0 then .payload else if i ≤ n then .data else .leadout

/-- The wire word of slot `i` (R99). -/
def slotWord (s : State) (i : Nat) : BitVec 11 :=
  if i = 0 then wireEncode s.cfg (BitVec.ofNat 8 s.payloadLength.toNat)
  else if i ≤ s.payloadLength.toNat then wireEncode s.cfg (s.frameBuffer.read (i - 1))
  else leadoutWord s.cfg

/-- The ticks of a frame before slot `i`. -/
def slotStart (s : State) (i : Nat) : Nat := 1 + s.cfg.nStrobe + s.cfg.nSync + i * s.cfg.tbyte

theorem frameTicks_eq_slotStart (s : State) (n : Nat) : frameTicks s.cfg n = slotStart s (n + 2) := rfl

theorem slotStart_succ (s : State) (i : Nat) : slotStart s (i + 1) = slotStart s i + s.cfg.tbyte := by
  simp only [slotStart, Nat.succ_mul, Nat.add_assoc]

@[simp] theorem slotState_zero (n : Nat) : slotState n 0 = .payload := rfl

@[simp] theorem slotWord_zero (s : State) : slotWord s 0 = wireEncode s.cfg (s.payloadLength.zeroExtend 8) := by
  rw [slotWord, if_pos rfl, BitVec.ofNat_toNat]

section Middle

variable {n i : Nat} (h1 : 1 ≤ i)
include h1

theorem slotState_byte (hi : i ≤ n) : slotState n i = .data := by
  rw [slotState, if_neg (by omega), if_pos hi]

theorem slotState_leadout (hi : n < i) : slotState n i = .leadout := by
  rw [slotState, if_neg (by omega), if_neg (by omega)]

/-- The state that the end of a slot enters, by any test that tells whether the bytes are sent. -/
theorem ite_eq_slotState {p : Prop} [Decidable p] (hp : p ↔ n < i) :
    (if p then LinkState.leadout else .data) = slotState n i := by
  split
  · exact (slotState_leadout h1 (hp.1 ‹_›)).symm
  · exact (slotState_byte h1 (Nat.not_lt.1 (mt hp.2 ‹_›))).symm

theorem slotWord_byte {s : State} (hi : i ≤ s.payloadLength.toNat) :
    slotWord s i = wireEncode s.cfg (s.frameBuffer.read (i - 1)) := by
  rw [slotWord, if_neg (by omega), if_pos hi]

theorem slotWord_leadout {s : State} (hi : s.payloadLength.toNat < i) : slotWord s i = leadoutWord s.cfg := by
  rw [slotWord, if_neg (by omega), if_neg (by omega)]

end Middle

/-! ### The waveform, part by part -/

theorem waveform_strobe {s : State} {i : Nat} (h : i < s.cfg.nStrobe) : waveform s (1 + i) = decide (i % 2 = 0) := by
  simp only [waveform]
  rw [if_neg (by omega), if_pos (by omega), Nat.add_sub_cancel_left]

theorem waveform_sync {s : State} {i : Nat} (h : i < s.cfg.nSync) :
    waveform s (1 + s.cfg.nStrobe + i) = decide (i < s.cfg.nSync / 2) := by
  simp only [waveform]
  rw [if_neg (by omega), if_neg (by omega), if_pos (by omega),
    show 1 + s.cfg.nStrobe + i - 1 - s.cfg.nStrobe = i by omega]

theorem waveform_slot {s : State} {i k : Nat} (hk : k < s.cfg.tbyte) :
    waveform s (slotStart s i + k) = slotBit s.cfg (slotWord s i) k := by
  have hoffset : slotStart s i + k - (1 + s.cfg.nStrobe + s.cfg.nSync) = k + i * s.cfg.tbyte := by
    unfold slotStart; omega
  have hdiv : (k + i * s.cfg.tbyte) / s.cfg.tbyte = i := by
    rw [Nat.add_mul_div_right _ _ (by omega), Nat.div_eq_of_lt hk, Nat.zero_add]
  have hmod : (k + i * s.cfg.tbyte) % s.cfg.tbyte = k := by
    rw [Nat.add_mul_mod_self_right, Nat.mod_eq_of_lt hk]
  simp only [waveform, hoffset, hdiv, hmod]
  unfold slotStart slotWord
  rw [if_neg (by omega), if_neg (by omega), if_neg (by omega)]

/-! ### Where a link stands in its frame -/

/-- The link `s` inside its frame: only these six fields differ from those it started with. -/
def onAir (s : State) (level : Bool) (st : LinkState) (timer : Nat) (index : BitVec 6) (out : Bool) : State :=
  { s with st := st, bitTimer := timer, byteIndex := index, lineOut := out, activity := true, lineIn := level }

/-- The link that started the frame as `s` stands as given after that many ticks: in START, in the strobe after `i` of its
ticks, in the sync after `i`, in slot `i` after `k`, or in READY after the frame's last tick. -/
inductive TxAt (s : State) (level : Bool) : Nat → State → Prop where
  | start : TxAt s level 0 s
  | strobe {i : Nat} {index : BitVec 6} (hi : i < s.cfg.nStrobe) :
      TxAt s level (1 + i) (onAir s level .strobe (s.cfg.nStrobe - i) index (decide (i % 2 = 1)))
  | sync {i : Nat} {index : BitVec 6} {out : Bool} (hi : i < s.cfg.nSync) :
      TxAt s level (1 + s.cfg.nStrobe + i) (onAir s level .sync (s.cfg.nSync - i) index out)
  | slot {i k : Nat} {index : BitVec 6} {out : Bool} (hi : i ≤ s.payloadLength.toNat + 1) (hk : k < s.cfg.tbyte)
      (hindex : 1 ≤ i → i ≤ s.payloadLength.toNat → index.toNat + 1 = i) :
      TxAt s level (slotStart s i + k) (onAir s level (slotState s.payloadLength.toNat i) (s.cfg.tbyte - k) index out)
  | done {index : BitVec 6} {out : Bool} :
      TxAt s level (frameTicks s.cfg s.payloadLength.toNat) (onAir s level .ready 0 index out)

variable {s u : State} {level : Bool} {finish : State → Host.Outcome State Fault Refusal}

/-- A tick of a timed phase of `m` ticks, after `i` of them. -/
theorem countdown_after {m i : Nat} (hi : i < m) (h : u.bitTimer = m - i) :
    countdown finish u =
      if i + 1 = m then finish { u with bitTimer := 0 } else .next { u with bitTimer := m - (i + 1) } := by
  split
  · exact countdown_last (by omega)
  · rw [countdown_running (by omega), h, Nat.sub_sub]

theorem execTxData_of_lt (h : s.byteIndex.toNat < maxFrameSize) :
    execTxData s = txSlot (wireEncode s.cfg (s.frameBuffer.read s.byteIndex.toNat)) finishTxData s := by
  simp only [execTxData, bufRead_of_lt h]

theorem ticks_one (level : Bool) (s : State) : ticks level 1 s = runTick level s := by
  simp only [ticks]
  split <;> simp [*]

section Frame

variable (hs : StartsAFrame s)
include hs

/-- Inside its frame the link ticks, and its state selects the rule (R100). -/
theorem runTick_onAir (st : LinkState) (timer : Nat) (index : BitVec 6) (out : Bool) :
    runTick level (onAir s level st timer index out) = exec (decodeTxKey st.code) (onAir s level st timer index out) := by
  obtain ⟨-, hdir, -, hon, hspin, -⟩ := hs
  have hkey : (onAir s level st timer index out).key = dispatchKey .transmit st := congrArg (dispatchKey · st) hdir
  rw [runTick_enabled (s := onAir s level st timer index out) level hon hspin, hkey, decodeTick_transmit]
  rfl

/-- A slot starts with its state's countdown and, for a byte, the byte's index. -/
theorem txAt_slotStart {i : Nat} {index : BitVec 6} {out : Bool} (hi : i ≤ s.payloadLength.toNat + 1)
    (hindex : 1 ≤ i → i ≤ s.payloadLength.toNat → index.toNat + 1 = i) :
    TxAt s level (slotStart s i) (onAir s level (slotState s.payloadLength.toNat i) s.cfg.tbyte index out) := by
  obtain ⟨⟨hw, -⟩, -⟩ := hs
  have hpos : 0 < s.cfg.tbyte := (by cases s.cfg.coding <;> decide : 0 < s.cfg.coding.wireLength).trans_le hw
  exact TxAt.slot (k := 0) hi hpos hindex

/-! ### One tick -/

theorem txAt_tick_start : ∃ t, runTick level s = .next t ∧ TxAt s level 1 t ∧ t.lineOut = waveform s 0 := by
  obtain ⟨⟨-, ⟨hpos, -⟩, -⟩, hdir, hst, hon, hspin, -⟩ := hs
  have hkey : s.key = dispatchKey .transmit .start := by rw [State.key, hdir, hst]
  rw [runTick_enabled level hon hspin, hkey]
  exact ⟨_, rfl, TxAt.strobe (i := 0) (by omega), rfl⟩

/-- Each strobe tick inverts the line, which was low at the start (R163). -/
theorem txAt_tick_strobe {i : Nat} {index : BitVec 6} (hi : i < s.cfg.nStrobe) :
    ∃ t, runTick level (onAir s level .strobe (s.cfg.nStrobe - i) index (decide (i % 2 = 1))) = .next t ∧
      TxAt s level (1 + i + 1) t ∧ t.lineOut = waveform s (1 + i) := by
  have ⟨⟨_, _, ⟨hpos, _⟩, _⟩, _⟩ := hs
  have hlevel : (!decide (i % 2 = 1)) = waveform s (1 + i) := by
    rw [waveform_strobe hi, ← decide_not, decide_eq_decide]
    omega
  have hnext : (!decide (i % 2 = 1)) = decide ((i + 1) % 2 = 1) := by
    rw [← decide_not, decide_eq_decide]
    omega
  have hrule : exec (decodeTxKey LinkState.strobe.code)
        (onAir s level .strobe (s.cfg.nStrobe - i) index (decide (i % 2 = 1))) =
      countdown (fun u => .next (u.enterPhase .sync u.cfg.nSync))
        (onAir s level .strobe (s.cfg.nStrobe - i) index (!decide (i % 2 = 1))) := rfl
  rw [runTick_onAir hs, hrule, countdown_after hi rfl]
  split
  · rename_i hlast
    refine ⟨_, rfl, ?_, hlevel⟩
    rw [Nat.add_assoc, hlast]
    exact TxAt.sync (i := 0) (by omega)
  · refine ⟨_, rfl, ?_, hlevel⟩
    rw [hnext]
    exact TxAt.strobe (i := i + 1) (by omega)

/-- The sync is high in its first half and low in its second (R164). -/
theorem txAt_tick_sync {i : Nat} {index : BitVec 6} {out : Bool} (hi : i < s.cfg.nSync) :
    ∃ t, runTick level (onAir s level .sync (s.cfg.nSync - i) index out) = .next t ∧
      TxAt s level (1 + s.cfg.nStrobe + i + 1) t ∧ t.lineOut = waveform s (1 + s.cfg.nStrobe + i) := by
  have ⟨⟨_, _, ⟨_, heven⟩, _⟩, _⟩ := hs
  have hlevel : decide (s.cfg.nSync / 2 < s.cfg.nSync - i) = waveform s (1 + s.cfg.nStrobe + i) := by
    rw [waveform_sync hi, decide_eq_decide]
    omega
  have hrule : exec (decodeTxKey LinkState.sync.code) (onAir s level .sync (s.cfg.nSync - i) index out) =
      countdown (fun u => .next (u.enterPhase .payload u.cfg.tbyte))
        (onAir s level .sync (s.cfg.nSync - i) index (decide (s.cfg.nSync / 2 < s.cfg.nSync - i))) := rfl
  rw [runTick_onAir hs, hrule, countdown_after hi rfl]
  split
  · rename_i hlast
    have hstart : 1 + s.cfg.nStrobe + i + 1 = slotStart s 0 := by unfold slotStart; omega
    rw [hstart]
    exact ⟨_, rfl, txAt_slotStart hs (i := 0) (Nat.zero_le _) nofun, hlevel⟩
  · exact ⟨_, rfl, TxAt.sync (i := i + 1) (by omega), hlevel⟩

omit hs in
/-- A tick of slot `i` under a rule that sends the slot's word and whose end is the start of the next slot, or READY. -/
theorem txAt_tick_of_slotRule {i k : Nat} {st : LinkState} {index : BitVec 6} {out : Bool}
    (hst : slotState s.payloadLength.toNat i = st) (hi : i ≤ s.payloadLength.toNat + 1) (hk : k < s.cfg.tbyte)
    (hindex : 1 ≤ i → i ≤ s.payloadLength.toNat → index.toNat + 1 = i)
    (hrule : runTick level (onAir s level st (s.cfg.tbyte - k) index out) =
      txSlot (slotWord s i) finish (onAir s level st (s.cfg.tbyte - k) index out))
    (hend : ∀ b, ∃ t, finish (onAir s level st 0 index b) = .next t ∧
      TxAt s level (slotStart s (i + 1)) t ∧ t.lineOut = b) :
    ∃ t, runTick level (onAir s level st (s.cfg.tbyte - k) index out) = .next t ∧
      TxAt s level (slotStart s i + k + 1) t ∧ t.lineOut = waveform s (slotStart s i + k) := by
  have hbit : slotBit s.cfg (slotWord s i) (s.cfg.tbyte - (s.cfg.tbyte - k)) = waveform s (slotStart s i + k) := by
    rw [waveform_slot hk, Nat.sub_sub_self hk.le]
  have hslot : txSlot (slotWord s i) finish (onAir s level st (s.cfg.tbyte - k) index out) =
      countdown finish (onAir s level st (s.cfg.tbyte - k) index (waveform s (slotStart s i + k))) := by
    rw [← hbit]
    exact txSlot_of_bounds (s := onAir s level st _ index out) (Nat.sub_pos_of_lt hk) (Nat.sub_le _ _)
  rw [hrule, hslot, countdown_after hk rfl]
  split
  · rename_i hlast
    rw [Nat.add_assoc, hlast, ← slotStart_succ]
    exact hend _
  · subst hst
    exact ⟨_, rfl, TxAt.slot (k := k + 1) hi (by omega) hindex, rfl⟩

/-- The count's slot ends in the first byte's slot, or the leadout's (R165). -/
theorem txAt_tick_payload {k : Nat} {index : BitVec 6} {out : Bool} (hk : k < s.cfg.tbyte) :
    ∃ t, runTick level (onAir s level .payload (s.cfg.tbyte - k) index out) = .next t ∧
      TxAt s level (slotStart s 0 + k + 1) t ∧ t.lineOut = waveform s (slotStart s 0 + k) := by
  refine txAt_tick_of_slotRule (finish := finishTxPayload) rfl (Nat.zero_le _) hk nofun ?_ fun b => ⟨_, rfl, ?_, rfl⟩
  · rw [runTick_onAir hs, slotWord_zero]
    rfl
  · have hempty : s.payloadLength = 0 ↔ s.payloadLength.toNat < 1 := by bv_omega
    show TxAt s level _ (onAir s level (if s.payloadLength = 0 then .leadout else .data) s.cfg.tbyte 0 b)
    rw [ite_eq_slotState le_rfl hempty]
    exact txAt_slotStart hs (by omega) fun _ _ => rfl

/-- A byte's slot ends in the next byte's, or the leadout's (R166). -/
theorem txAt_tick_data {i k : Nat} {index : BitVec 6} {out : Bool} (h1 : 1 ≤ i) (hi : i ≤ s.payloadLength.toNat)
    (hk : k < s.cfg.tbyte) (hindex : index.toNat + 1 = i) :
    ∃ t, runTick level (onAir s level .data (s.cfg.tbyte - k) index out) = .next t ∧
      TxAt s level (slotStart s i + k + 1) t ∧ t.lineOut = waveform s (slotStart s i + k) := by
  have ⟨_, _, _, _, _, hlen⟩ := hs
  rw [maxFrameSize_eq] at hlen
  refine txAt_tick_of_slotRule (finish := finishTxData) (slotState_byte h1 hi) (by omega) hk (fun _ _ => hindex) ?_
    fun b => ⟨_, rfl, ?_, rfl⟩
  · rw [runTick_onAir hs, slotWord_byte h1 hi, ← hindex, Nat.add_sub_cancel]
    exact execTxData_of_lt (s := onAir s level .data _ index out) (show index.toNat < 40 by omega)
  · have hlast : index + 1 = s.payloadLength ↔ s.payloadLength.toNat < i + 1 := by bv_omega
    show TxAt s level _ (onAir s level (if index + 1 = s.payloadLength then .leadout else .data) s.cfg.tbyte (index + 1) b)
    rw [ite_eq_slotState (by omega) hlast]
    exact txAt_slotStart hs (by omega) fun _ _ => by bv_omega

/-- The leadout's slot ends the frame (R167). -/
theorem txAt_tick_leadout {k : Nat} {index : BitVec 6} {out : Bool} (hk : k < s.cfg.tbyte) :
    ∃ t, runTick level (onAir s level .leadout (s.cfg.tbyte - k) index out) = .next t ∧
      TxAt s level (slotStart s (s.payloadLength.toNat + 1) + k + 1) t ∧
      t.lineOut = waveform s (slotStart s (s.payloadLength.toNat + 1) + k) := by
  have hafter : s.payloadLength.toNat < s.payloadLength.toNat + 1 := Nat.lt_succ_self _
  refine txAt_tick_of_slotRule (finish := fun u => .next { u with st := .ready })
    (slotState_leadout (Nat.succ_pos _) hafter) le_rfl hk (fun _ h => absurd h hafter.not_ge) ?_
    fun b => ⟨_, rfl, TxAt.done, rfl⟩
  rw [runTick_onAir hs, slotWord_leadout (Nat.succ_pos _) hafter]
  rfl

/-- One tick of a frame takes the link one tick further in it and drives the level of the waveform. -/
theorem txAt_tick {j : Nat} (h : TxAt s level j u) (hj : j < frameTicks s.cfg s.payloadLength.toNat) :
    ∃ t, runTick level u = .next t ∧ TxAt s level (j + 1) t ∧ t.lineOut = waveform s j := by
  cases h with
  | start => exact txAt_tick_start hs
  | strobe hi => exact txAt_tick_strobe hs hi
  | sync hi => exact txAt_tick_sync hs hi
  | @slot i _ _ _ hi hk hindex =>
    rcases Nat.eq_zero_or_pos i with rfl | h1
    · exact txAt_tick_payload hs hk
    rcases Nat.lt_or_ge s.payloadLength.toNat i with hlead | hbyte
    · obtain rfl : i = s.payloadLength.toNat + 1 := by omega
      rw [slotState_leadout h1 hlead]
      exact txAt_tick_leadout hs hk
    · rw [slotState_byte h1 hbyte]
      exact txAt_tick_data hs h1 hbyte hk (hindex h1 hbyte)
  | done => exact absurd hj (lt_irrefl _)

/-- After `j` ticks the link stands where its frame does, to the frame's last tick. -/
theorem ticks_txAt (level : Bool) {j : Nat} (hj : j ≤ frameTicks s.cfg s.payloadLength.toNat) :
    ∃ t, ticks level j s = .next t ∧ TxAt s level j t := by
  induction j with
  | zero => exact ⟨s, rfl, .start⟩
  | succ j ih =>
    obtain ⟨u, hu, hat⟩ := ih (by omega)
    obtain ⟨t, ht, hnext, -⟩ := txAt_tick hs hat hj
    exact ⟨t, by rw [ticks_add level j 1 hu, ticks_one, ht], hnext⟩

end Frame

end Sys2Proof.Machine

namespace Sys2Proof

open Sys2Proof.Machine

/-- Settles O52: tick `j` is a tick of the link where it stands in its frame after `j` ticks. -/
theorem txFrameDrivesItsWaveform : Obligations.TxFrameDrivesItsWaveform := by
  unfold Obligations.TxFrameDrivesItsWaveform
  intro s level j hs hj
  obtain ⟨u, hu, hat⟩ := ticks_txAt hs level hj.le
  obtain ⟨t, ht, -, hlevel⟩ := txAt_tick hs hat hj
  exact ⟨t, by rw [ticks_add level j 1 hu, ticks_one, ht], hlevel⟩

end Sys2Proof
end

section
/-! The CRC generator (40_crc16.md). Two facts carry the proofs. A round applied to an accumulator XORed with a word is a
bit-serial step with the word's top bit, so rounds on a byte take its bits one by one (R122, R123). And a step can be
undone, since the polynomial is odd and its lowest place therefore shows the bit shifted out (R127). -/

namespace Sys2Proof.Machine

open Sys2Proof

/-! ### The byte-parallel step is eight bit-serial steps -/

/-- A round is the bit-serial step with a 0. -/
theorem crcRound_eq_crcBitStep (c : BitVec 16) : crcRound c = crcBitStep c false := by
  unfold crcRound crcBitStep
  cases c.getLsbD 15 <;> simp

/-- A word XORed into the accumulator enters the round by its top bit; the rest of it moves up. -/
theorem crcRound_xor (c x : BitVec 16) : crcRound (c ^^^ x) = crcBitStep c (x.getMsbD 0) ^^^ (x <<< 1) := by
  have htop : x.getMsbD 0 = x.getLsbD 15 := rfl
  rw [crcRound_eq_crcBitStep, htop]
  simp only [crcBitStep, BitVec.shiftLeft_xor_distrib, BitVec.getLsbD_xor, Bool.xor_false]
  ac_rfl

/-- `n` rounds take in the top `n` bits of a word XORed into the accumulator, most significant first. -/
theorem crcRounds_xor (n : Nat) (c x : BitVec 16) :
    crcRounds n (c ^^^ x) = ((List.range n).map x.getMsbD).foldl crcBitStep c ^^^ (x <<< n) := by
  induction n generalizing c x with
  | zero => simp [crcRounds]
  | succ n ih =>
    have hbits : (x <<< 1).getMsbD = x.getMsbD ∘ Nat.succ := by
      funext j
      exact BitVec.getMsbD_shiftLeft x 1
    rw [crcRounds, crcRound_xor, ih, hbits, List.range_succ_eq_map, List.map_cons, List.map_map, List.foldl_cons,
      ← BitVec.shiftLeft_add, Nat.add_comm 1 n]

/-- The bits of a byte are the top bits of the word that a byte-parallel step XORs in. -/
theorem map_getMsbD_eq_msbFirst (b : Byte) :
    (List.range 8).map (b.zeroExtend 16 <<< 8).getMsbD = msbFirst b := by
  refine List.map_congr_left fun j hj => ?_
  have hlt : j < 8 := List.mem_range.1 hj
  have hword : (b.setWidth (8 + 8)).getMsbD (j + 8) = b.getMsbD j := BitVec.getMsbD_setWidth_add (Nat.le_add_left 8 j)
  rw [BitVec.getMsbD_shiftLeft]
  exact hword.trans (by simp [BitVec.getMsbD_eq_getLsbD, hlt])

theorem crcByteStep_eq_foldl (c : BitVec 16) (b : Byte) : crcByteStep c b = (msbFirst b).foldl crcBitStep c := by
  have hout : b.zeroExtend 16 <<< 8 <<< 8 = 0#16 := by
    rw [← BitVec.shiftLeft_add]
    exact BitVec.shiftLeft_eq_zero (le_refl 16)
  rw [crcByteStep, crcRounds_xor, map_getMsbD_eq_msbFirst, hout, BitVec.xor_zero]

/-- The functional form over the bits of its bytes. -/
theorem crc16_eq_foldl_bits (d : List Byte) : crc16 d = (d.flatMap msbFirst).foldl crcBitStep crcInitial := by
  rw [List.foldl_flatMap, crc16]
  congr
  funext c b
  exact crcByteStep_eq_foldl c b

/-! ### Sequences of CRC commands -/

section Feed

variable {α : Type} {f : α → Instr} {feed : BitVec 16 → α → BitVec 16}
  (hf : ∀ a s, exec (f a) s = .next ({ s with crcAcc := feed s.crcAcc a }.reply .ok))
include hf

/-- A command that feeds the accumulator, given a sequence, folds it in and leaves every other register. -/
theorem execAll_map_feed (xs : List α) (s : State) :
    ∃ r, execAll (xs.map f) s = .next { s with crcAcc := xs.foldl feed s.crcAcc, hostReturn := r } := by
  induction xs generalizing s with
  | nil => exact ⟨s.hostReturn, rfl⟩
  | cons a xs ih =>
    obtain ⟨r, hr⟩ := ih ({ s with crcAcc := feed s.crcAcc a }.reply .ok)
    refine ⟨r, ?_⟩
    simp only [List.map_cons, execAll, hf]
    exact hr

/-- CRC_INIT, a sequence fed in, and CRC_READ return the fold of the sequence from the initial value. -/
theorem execAll_init_feed_read (xs : List α) (s : State) :
    ∃ t, execAll ([.crcInit] ++ xs.map f ++ [.crcRead]) s = .next t ∧
      t.hostReturn.info = .crc (xs.foldl feed crcInitial) := by
  obtain ⟨r, hr⟩ := execAll_map_feed hf xs ({ s with crcAcc := crcInitial }.reply .ok)
  have hinit : execAll ([.crcInit] ++ xs.map f) s = _ := hr
  exact ⟨_, by rw [execAll_append _ _ hinit]; rfl, rfl⟩

end Feed

theorem exec_crcByte (b : Byte) (s : State) :
    exec (.crcByte b) s = .next ({ s with crcAcc := crcByteStep s.crcAcc b }.reply .ok) := rfl

theorem exec_crcBit (d : Bool) (s : State) :
    exec (.crcBit d) s = .next ({ s with crcAcc := crcBitStep s.crcAcc d }.reply .ok) := rfl

/-- CRC16 takes the first `length` bytes of a sequence that has as many. -/
theorem exec_crc16_append (d rest : List Byte) (s : State) :
    exec (.crc16 (d ++ rest) d.length) s = .next (s.answer (.crc (crc16 d))) := by
  show execCrc16 (d ++ rest) d.length s = _
  rw [execCrc16, if_neg (by simp), List.take_left]

/-! ### No step loses information -/

/-- The polynomial is odd, so the lowest bit of a round's result is the bit it shifted out. -/
theorem crcRound_getLsbD_zero (c : BitVec 16) : (crcRound c).getLsbD 0 = c.getLsbD 15 := by
  unfold crcRound
  split <;> simp_all

theorem crcRound_injective : Function.Injective crcRound := by
  intro a b h
  have htop : a.getLsbD 15 = b.getLsbD 15 := by rw [← crcRound_getLsbD_zero, h, crcRound_getLsbD_zero]
  have hshift : a <<< 1 = b <<< 1 := by
    simpa only [crcRound_eq_crcBitStep, crcBitStep, htop, BitVec.xor_left_inj] using h
  refine BitVec.eq_of_getElem_eq fun i hi => ?_
  rcases Nat.lt_or_ge i 15 with hlow | hhigh
  · have hbit := congrArg (·.getLsbD (i + 1)) hshift
    simpa [Nat.succ_lt_succ hlow] using hbit
  · obtain rfl : i = 15 := by omega
    simpa using htop

theorem crcRounds_injective (n : Nat) : Function.Injective (crcRounds n) := by
  induction n with
  | zero => exact fun _ _ h => h
  | succ n ih => exact ih.comp crcRound_injective

theorem crcByteStep_left_injective (b : Byte) : Function.Injective (crcByteStep · b) :=
  fun _ _ h => (BitVec.xor_left_inj _).1 (crcRounds_injective 8 h)

theorem crcByteStep_right_injective (c : BitVec 16) : Function.Injective (crcByteStep c) := by
  intro x y h
  have hword : x.zeroExtend 16 <<< 8 = y.zeroExtend 16 <<< 8 := (BitVec.xor_right_inj _).1 (crcRounds_injective 8 h)
  bv_omega

theorem foldl_crcByteStep_injective (d : List Byte) : Function.Injective (d.foldl crcByteStep) := by
  induction d with
  | nil => exact fun _ _ h => h
  | cons b d ih => exact ih.comp (crcByteStep_left_injective b)

/-- Two sequences of one CRC that differ in at most one byte are equal. -/
theorem crc16_middle_inj {pre post : List Byte} {x y : Byte} :
    crc16 (pre ++ x :: post) = crc16 (pre ++ y :: post) ↔ x = y := by
  refine ⟨fun h => ?_, fun h => by rw [h]⟩
  simp only [crc16, List.foldl_append, List.foldl_cons] at h
  exact crcByteStep_right_injective _ (foldl_crcByteStep_injective post h)

/-- Any other value of one byte changes the CRC. -/
theorem crc16_set_ne {d : List Byte} {i : Nat} {x : Byte} (hi : i < d.length) (hx : x ≠ d[i]) :
    crc16 (d.set i x) ≠ crc16 d := by
  have hd : crc16 d = crc16 (d.take i ++ d[i] :: d.drop (i + 1)) := by
    rw [List.getElem_cons_drop, List.take_append_drop]
  rw [List.set_eq_take_append_cons_drop, if_pos hi, hd]
  exact mt crc16_middle_inj.1 hx

/-- Flipping a bit changes a byte. -/
theorem xor_two_pow_ne {k : Nat} (hk : k < 8) (b : Byte) : b ^^^ BitVec.ofNat 8 (2 ^ k) ≠ b := by
  intro h
  have hzero : BitVec.ofNat 8 (2 ^ k) = 0#8 := (BitVec.xor_right_inj b).1 (h.trans BitVec.xor_zero.symm)
  have hbit := congrArg (·.getLsbD k) hzero
  simp only [BitVec.getLsbD_ofNat, Nat.testBit_two_pow_self] at hbit
  simp [hk] at hbit

end Sys2Proof.Machine

namespace Sys2Proof

open Sys2Proof.Machine

/-- Settles O37: each of the three commands is one update of the accumulator or of the host's port. -/
theorem crcInitBitAndRead : Obligations.CrcInitBitAndRead := by
  unfold Obligations.CrcInitBitAndRead
  exact fun s => ⟨rfl, fun d => exec_crcBit d s, rfl⟩

/-- Settles O38: the byte-parallel step folds in the byte's bits, and so does the run of CRC_BIT. -/
theorem crcByteIsEightBitSteps : Obligations.CrcByteIsEightBitSteps := by
  unfold Obligations.CrcByteIsEightBitSteps
  intro s b
  obtain ⟨r, hr⟩ := execAll_map_feed exec_crcBit (msbFirst b) s
  refine ⟨_, hr, ?_⟩
  rw [exec_crcByte, crcByteStep_eq_foldl]
  rfl

/-- Settles O39: all three forms give CRC16 of the sequence. -/
theorem crcFormsAgree : Obligations.CrcFormsAgree := by
  unfold Obligations.CrcFormsAgree
  intro s d rest
  obtain ⟨t, ht, hbytes⟩ := execAll_init_feed_read exec_crcByte d s
  obtain ⟨u, hu, hbits⟩ := execAll_init_feed_read exec_crcBit (d.flatMap msbFirst) s
  rw [← crc16_eq_foldl_bits] at hbits
  exact ⟨crc16 d, t, u, ht, hbytes, hu, hbits, exec_crc16_append d rest s⟩

/-- Settles O40: no later step undoes the change that the flipped bit makes at its byte. -/
theorem singleBitFlipChangesTheCrc : Obligations.SingleBitFlipChangesTheCrc := by
  unfold Obligations.SingleBitFlipChangesTheCrc
  refine ⟨rfl, fun d i k hi hk => ?_⟩
  rw [← List.getElem_eq_getD 0 (h := hi)]
  exact crc16_set_ne hi (xor_two_pow_ne hk d[i])

end Sys2Proof
end

section
/-! The functions of the line code (R140 to R144; log 10): what each answers, and that decoding gives back what was encoded. -/

namespace Sys2Proof.Machine

open Sys2Proof

/-! ### The round trips -/

/-- LC_DEC gives back the nibble that LC_ENC encoded: LC has its code at one place only (R93, R144). -/
theorem lcDecode_lcEncode {lc : LineCode} (h : lc.Bijective) (n : BitVec 4) : lcDecode lc (lcEncode lc n) = n := by
  have hsame : lc[(lcDecode lc (lcEncode lc n)).toNat] = lc[n.toNat] := getElem_lcDecode h (lcEncode_mem h n)
  have hplace := h.2 (lcDecode lc (lcEncode lc n)).toFin n.toFin hsame
  exact BitVec.eq_of_toFin_eq hplace

/-- A byte is its high nibble before its low one. -/
theorem nibbles_append (b : Byte) : b.extractLsb' 4 4 ++ b.extractLsb' 0 4 = b := by
  apply BitVec.eq_of_toNat_eq
  rw [toNat_append_eq_add, BitVec.extractLsb'_toNat, BitVec.extractLsb'_toNat, Nat.shiftRight_eq_div_pow,
    Nat.shiftRight_zero]
  omega

/-- WIRE_DEC of the data bits of WIRE_ENC gives the byte back, in both modes (R144). -/
theorem wireDecodeAs_wireEncodeAs (coding : Coding) {lc : LineCode} (h : lc.Bijective) (b : Byte) :
    wireDecodeAs coding lc (dataBits coding.wireLength (wireEncodeAs coding lc b)) = b := by
  cases coding with
  | raw => exact wireDecodeAs_rawWord lc b
  | balanced =>
    calc wireDecodeAs .balanced lc (dataBits 11 (wireEncodeAs .balanced lc b))
      _ = lcDecode lc (lcEncode lc (b.extractLsb' 4 4)) ++ lcDecode lc (lcEncode lc (b.extractLsb' 0 4)) :=
        wireDecodeAs_balancedWord lc _ _
      _ = b.extractLsb' 4 4 ++ b.extractLsb' 0 4 := by rw [lcDecode_lcEncode h, lcDecode_lcEncode h]
      _ = b := nibbles_append b

/-! ### The values, as numbers -/

/-- LC_ENC of the nibble with the value `k` is entry `k` of LC (R140). -/
theorem lcEncode_eq_getElem (lc : LineCode) {n : BitVec 4} {k : Fin 16} (h : n.toNat = k) : lcEncode lc n = lc[k] := by
  simp [lcEncode, h]

/-- The BALANCED word of a byte holds the symbols of its nibbles under the framing bit (R94, R142). -/
theorem wireEncodeAs_balanced_toNat (lc : LineCode) {b : Byte} {hi lo : Fin 16} (h : b.toNat = 16 * hi.val + lo.val) :
    (wireEncodeAs .balanced lc b).toNat = 0x400 + 32 * lc[hi].toNat + lc[lo].toNat := by
  have hhigh : (b.extractLsb' 4 4).toNat = hi := by
    rw [BitVec.extractLsb'_toNat, Nat.shiftRight_eq_div_pow]
    omega
  have hlow : (b.extractLsb' 0 4).toNat = lo := by
    rw [BitVec.extractLsb'_toNat, Nat.shiftRight_zero]
    omega
  rw [wireEncodeAs, balancedWord_toNat, lcEncode_eq_getElem lc hhigh, lcEncode_eq_getElem lc hlow]

/-- RAW decoding keeps the low eight data bits (R143). -/
theorem wireDecodeAs_raw_toNat (lc : LineCode) (r : BitVec 10) : (wireDecodeAs .raw lc r).toNat = r.toNat % 256 := by
  rw [wireDecodeAs, BitVec.extractLsb'_toNat, Nat.shiftRight_zero]

/-- BALANCED decoding puts the nibble of the high five data bits before that of the low five (R143). -/
theorem wireDecodeAs_balanced_toNat (lc : LineCode) (r : BitVec 10) :
    (wireDecodeAs .balanced lc r).toNat =
      16 * (lcDecode lc (BitVec.ofNat 5 (r.toNat / 32))).toNat + (lcDecode lc (BitVec.ofNat 5 (r.toNat % 32))).toNat := by
  have hhigh : r.extractLsb' 5 5 = BitVec.ofNat 5 (r.toNat / 32) := by
    apply BitVec.eq_of_toNat_eq
    rw [BitVec.extractLsb'_toNat, Nat.shiftRight_eq_div_pow, BitVec.toNat_ofNat]
  have hlow : r.extractLsb' 0 5 = BitVec.ofNat 5 (r.toNat % 32) := by
    apply BitVec.eq_of_toNat_eq
    rw [BitVec.extractLsb'_toNat, Nat.shiftRight_zero, BitVec.toNat_ofNat, Nat.mod_mod]
  rw [wireDecodeAs, hhigh, hlow]
  exact toNat_append_eq_add _ _

end Sys2Proof.Machine

namespace Sys2Proof

open Sys2Proof.Machine

/-- Settles O42: LC has each code of CODESET at one place, and a word's data bits are its byte or its two symbols. -/
theorem lineCodeRoundTrip : Obligations.LineCodeRoundTrip := by
  unfold Obligations.LineCodeRoundTrip
  rintro cfg ⟨-, -, -, hlc, -⟩
  exact ⟨wireDecodeAs_wireEncodeAs cfg.coding hlc, lcDecode_lcEncode hlc, fun _ hc => lcDecode_invalid cfg.lc hc⟩

/-- Settles O41: each function hands one value to the host's port; its number follows from the mode. -/
theorem lineCodeFunctionsAnswer : Obligations.LineCodeFunctionsAnswer := by
  unfold Obligations.LineCodeFunctionsAnswer
  intro s
  refine ⟨fun n => rfl, fun c => ⟨lcDecode s.cfg.lc c, rfl, lcDecode_invalid s.cfg.lc, fun hlc => getElem_lcDecode hlc⟩,
    fun b => ⟨wireEncode s.cfg b, rfl, fun hraw => ?_, fun hbal hi lo hb => ?_⟩,
    fun r => ⟨wireDecode s.cfg r, rfl, fun hraw => ?_, fun hbal => ?_⟩⟩
  · rw [wireEncode, hraw, wireEncodeAs, rawWord_toNat]
  · rw [wireEncode, hbal, wireEncodeAs_balanced_toNat s.cfg.lc hb]
  · rw [wireDecode, hraw, wireDecodeAs_raw_toNat]
  · rw [wireDecode, hbal, wireDecodeAs_balanced_toNat]

end Sys2Proof
end

section
/-! The transmit ticks (R160 to R170): the keys that select no rule of an FSM, the rules one by one, what the rules do not
read, and how long a frame lasts. -/

namespace Sys2Proof

/-- The rows of the states an FSM does not have and of the reserved direction (R104, R168, R201). -/
def Instr.isUnreachableTick : Instr → Bool
  | .txUnreachableRecv | .txUnreachableHigh _ | .rxUnreachableStrobe | .rxUnreachable9 | .rxUnreachable10
  | .rxUnreachable11 | .rxUnreachable12 | .rxUnreachable13 | .rxUnreachable14 | .rxUnreachable15 | .reservedDir3 _ => true
  | _ => false

end Sys2Proof

namespace Sys2Proof.Machine

open Sys2Proof

variable {s u : State} {finish : State → Host.Outcome State Fault Refusal} {w : BitVec 11}

/-! ### Keys without a rule -/

theorem exec_unreachableTick {i : Instr} (h : i.isUnreachableTick = true) (s : State) :
    exec i s = .fault .unreachableState := by
  cases i with
  | txUnreachableRecv | txUnreachableHigh | rxUnreachableStrobe | rxUnreachable9 | rxUnreachable10 | rxUnreachable11
  | rxUnreachable12 | rxUnreachable13 | rxUnreachable14 | rxUnreachable15 | reservedDir3 => rfl
  | _ => cases h

/-- A tick without direction in a reserved state (log 24). -/
theorem exec_idle_reserved (k : BitVec 4) (h : 9 ≤ s.st.code.toNat) : exec (.idle k) s = .fault .unreachableState :=
  if_pos h

theorem decodeTxKey_unreachable : ∀ k : BitVec 4, 7 ≤ k.toNat → (decodeTxKey k).isUnreachableTick = true := by decide

theorem decodeRxKey_unreachable :
    ∀ k : BitVec 4, k.toNat = 2 ∨ 9 ≤ k.toNat → (decodeRxKey k).isUnreachableTick = true := by decide

/-- The keys `01 0111`, `01 1xxx`, `10 0010`, `10 1001` to `10 1111` and `11 xxxx` (R100). -/
theorem decodeTick_unreachable (k : BitVec 4) :
    (7 ≤ k.toNat → (decodeTick (0b01#2 ++ k)).isUnreachableTick = true) ∧
    (k.toNat = 2 ∨ 9 ≤ k.toNat → (decodeTick (0b10#2 ++ k)).isUnreachableTick = true) ∧
    (decodeTick (0b11#2 ++ k)).isUnreachableTick = true := by
  have htx : decodeTick (0b01#2 ++ k) = decodeTxKey k := by
    rw [← LinkState.code_ofCode k]; exact decodeTick_transmit _
  have hrx : decodeTick (0b10#2 ++ k) = decodeRxKey k := by
    rw [← LinkState.code_ofCode k]; exact decodeTick_receive _
  have hreserved : decodeTick (0b11#2 ++ k) = .reservedDir3 k := by
    rw [← LinkState.code_ofCode k]; exact decodeTick_reserved _
  rw [htx, hrx, hreserved]
  exact ⟨decodeTxKey_unreachable k, decodeRxKey_unreachable k, rfl⟩

/-! ### A slot's ticks -/

theorem txSlot_running (h : 2 ≤ s.bitTimer) (h' : s.bitTimer ≤ s.cfg.tbyte) :
    txSlot w finish s =
      .next { s with lineOut := slotBit s.cfg w (s.cfg.tbyte - s.bitTimer), bitTimer := s.bitTimer - 1 } := by
  rw [txSlot_of_bounds (by omega) h']
  exact countdown_running (s := { s with lineOut := _ }) h

theorem txSlot_last (h : s.bitTimer = 1) (h' : 1 ≤ s.cfg.tbyte) :
    txSlot w finish s =
      finish { s with lineOut := slotBit s.cfg w (s.cfg.tbyte - s.bitTimer), bitTimer := 0 } := by
  rw [txSlot_of_bounds h.ge (h.le.trans h')]
  exact countdown_last (s := { s with lineOut := _ }) h

theorem leadoutWord_eq_ofNat (cfg : Config) : leadoutWord cfg = BitVec.ofNat 11 (2 ^ (cfg.coding.wireLength - 1)) := by
  rw [← leadoutWord_toNat, BitVec.ofNat_toNat, BitVec.setWidth_eq]

/-- Below the buffer's end the index does not wrap, so the last byte is recognised by the numbers. -/
theorem index_succ_eq_iff {index n : BitVec 6} (h : index.toNat < maxFrameSize) :
    index + 1 = n ↔ index.toNat + 1 = n.toNat := by
  rw [maxFrameSize_eq] at h
  bv_omega

/-! ### What a transmit tick does not read -/

/-- A rule that goes on does so alike whatever `lineIn` and `phaseReq` hold, and only passes them on. -/
def IgnoresReceiveSide (f : State → Host.Outcome State Fault Refusal) : Prop :=
  ∀ (s t : State) (b p : Bool), f s = .next t →
    f { s with lineIn := b, phaseReq := p } = .next { t with lineIn := b, phaseReq := p }

theorem ignoresReceiveSide_next {f : State → State}
    (h : ∀ s b p, f { s with lineIn := b, phaseReq := p } = { f s with lineIn := b, phaseReq := p }) :
    IgnoresReceiveSide fun s => .next (f s) := by
  intro s t b p hs
  cases hs
  exact congrArg Host.Outcome.next (h s b p)

theorem countdown_ignoresReceiveSide (hf : IgnoresReceiveSide finish) : IgnoresReceiveSide (countdown finish) := by
  intro s t b p h
  obtain ⟨h2, rfl⟩ | ⟨h1, hfin⟩ := countdown_cases h
  · exact countdown_running (s := { s with lineIn := b, phaseReq := p }) h2
  · exact (countdown_last (s := { s with lineIn := b, phaseReq := p }) h1).trans (hf _ _ b p hfin)

theorem txSlot_ignoresReceiveSide (hf : IgnoresReceiveSide finish) : IgnoresReceiveSide (txSlot w finish) := by
  intro s t b p h
  obtain ⟨hle, ⟨h2, rfl⟩ | ⟨h1, hfin⟩⟩ := txSlot_cases h
  · exact txSlot_running (s := { s with lineIn := b, phaseReq := p }) h2 hle
  · exact (txSlot_last (s := { s with lineIn := b, phaseReq := p }) h1 (h1.ge.trans hle)).trans (hf _ _ b p hfin)

theorem execTxData_ignoresReceiveSide : IgnoresReceiveSide execTxData := by
  intro s t b p h
  rcases Nat.lt_or_ge s.byteIndex.toNat maxFrameSize with hi | hi
  · rw [execTxData_of_lt hi] at h
    rw [execTxData_of_lt (s := { s with lineIn := b, phaseReq := p }) hi]
    exact txSlot_ignoresReceiveSide (ignoresReceiveSide_next fun _ _ _ => rfl) s t b p h
  · rw [execTxData_index hi] at h
    cases h

theorem txTick_ignoresReceiveSide {i : Instr} (hi : i.isTxTick = true) : IgnoresReceiveSide (exec i) := by
  cases i with
  | txReady | txStart => exact ignoresReceiveSide_next fun _ _ _ => rfl
  | txStrobe | txSync =>
    exact fun _ _ b p h => countdown_ignoresReceiveSide (ignoresReceiveSide_next fun _ _ _ => rfl) _ _ b p h
  | txPayload | txLeadout =>
    exact fun _ _ b p h => txSlot_ignoresReceiveSide (ignoresReceiveSide_next fun _ _ _ => rfl) _ _ b p h
  | txData => exact execTxData_ignoresReceiveSide
  | _ => cases hi

/-! ### How long a frame lasts -/

theorem slotStart_add_lt_frameTicks {n i k : Nat} (hi : i ≤ n + 1) (hk : k < s.cfg.tbyte) :
    slotStart s i + k < frameTicks s.cfg n := by
  have hslots : (i + 1) * s.cfg.tbyte ≤ (n + 2) * s.cfg.tbyte := Nat.mul_le_mul_right _ (by omega)
  rw [Nat.succ_mul] at hslots
  unfold slotStart frameTicks
  omega

theorem slotState_ne_ready (n i : Nat) : slotState n i ≠ .ready := by
  unfold slotState
  split
  · decide
  · split <;> decide

/-- The frame's last tick alone leaves the link in READY, with its countdown at 0 (R167, R170). -/
theorem txAt_ready {level : Bool} {j : Nat} (hs : StartsAFrame s) (h : TxAt s level j u) :
    j < frameTicks s.cfg s.payloadLength.toNat ∧ u.st ≠ .ready ∨
    j = frameTicks s.cfg s.payloadLength.toNat ∧ u.st = .ready ∧ u.bitTimer = 0 := by
  cases h with
  | start =>
    obtain ⟨-, -, hst, -⟩ := hs
    exact .inl ⟨by unfold frameTicks; omega, hst ▸ nofun⟩
  | strobe hi => exact .inl ⟨by unfold frameTicks; omega, nofun⟩
  | sync hi => exact .inl ⟨by unfold frameTicks; omega, nofun⟩
  | slot hi hk => exact .inl ⟨slotStart_add_lt_frameTicks hi hk, slotState_ne_ready _ _⟩
  | done => exact .inr ⟨rfl, rfl, rfl⟩

/-- No tick of a frame writes the frame (R160). -/
theorem txAt_frame {level : Bool} {j : Nat} (h : TxAt s level j u) :
    u.frameBuffer = s.frameBuffer ∧ u.payloadLength = s.payloadLength := by
  cases h <;> exact ⟨rfl, rfl⟩

end Sys2Proof.Machine

namespace Sys2Proof

open Sys2Proof.Machine

/-- Settles O51: the link stands where its frame does (`ticks_txAt`), and that is READY at the frame's end only. -/
theorem txFrameLastsItsTicks : Obligations.TxFrameLastsItsTicks := by
  unfold Obligations.TxFrameLastsItsTicks
  intro s level hs
  refine ⟨?_, fun k hk => ?_⟩
  · obtain ⟨t, ht, hat⟩ := ticks_txAt hs level le_rfl
    obtain ⟨hlt, -⟩ | ⟨-, hready, htimer⟩ := txAt_ready hs hat
    · exact absurd hlt (lt_irrefl _)
    · exact ⟨t, ht, hready, htimer, txAt_frame hat⟩
  · obtain ⟨t, ht, hat⟩ := ticks_txAt hs level hk.le
    obtain ⟨-, hbusy⟩ | ⟨hend, -⟩ := txAt_ready hs hat
    · exact ⟨t, ht, hbusy⟩
    · exact absurd hend hk.ne

/-- Settles O28: the rules of the transmit ticks pass `lineIn` on unread, and no tick of them writes the frame. -/
theorem txTicksNeverReadTheLine : Obligations.TxTicksNeverReadTheLine := by
  unfold Obligations.TxTicksNeverReadTheLine
  intro i s t b hi h
  have hline := txTick_ignoresReceiveSide hi s t b s.phaseReq h
  obtain ⟨st, bi, n, o, a, rfl, -⟩ := txTick_writes hi h
  exact ⟨hline, rfl, rfl, rfl⟩

/-- Settles O13: the rows of these keys fault in every state, and IDLE does in a reserved one. -/
theorem unreachableTicksFault : Obligations.UnreachableTicksFault := by
  unfold Obligations.UnreachableTicksFault
  intro s
  refine ⟨rfl, fun _ => rfl, rfl, rfl, rfl, rfl, rfl, rfl, rfl, rfl, fun _ => rfl,
    fun h => ⟨fun k => exec_idle_reserved k h, fun hdir => ?_⟩, fun k => ?_⟩
  · rw [hdir, decodeTick_none]
    exact exec_idle_reserved _ h
  · obtain ⟨htx, hrx, hreserved⟩ := decodeTick_unreachable k
    exact ⟨fun h => exec_unreachableTick (htx h) s, fun h => exec_unreachableTick (hrx h) s,
      exec_unreachableTick hreserved s⟩

/-- Settles O15: both rules are one assignment, without a case. -/
theorem txReadyAndStartTicks : Obligations.TxReadyAndStartTicks := by
  unfold Obligations.TxReadyAndStartTicks
  exact ⟨rfl, rfl, fun _ => ⟨rfl, rfl⟩⟩

/-- Settles O16: a countdown after the line's toggle. -/
theorem txStrobeTick : Obligations.TxStrobeTick := by
  unfold Obligations.TxStrobeTick
  refine ⟨rfl, fun s => ?_⟩
  rw [show exec .txStrobe s = execTxStrobe s from rfl, execTxStrobe]
  exact ⟨fun h => countdown_running h, fun h => countdown_last h⟩

/-- Settles O17: a countdown after the line's level for the half of the window. -/
theorem txSyncTick : Obligations.TxSyncTick := by
  unfold Obligations.TxSyncTick
  refine ⟨rfl, fun s => ?_⟩
  rw [show exec .txSync s = execTxSync s from rfl, execTxSync]
  exact ⟨fun h => countdown_running h, fun h => countdown_last h⟩

/-- Settles O18: a slot of the count's word, with the end of R165. -/
theorem txPayloadTick : Obligations.TxPayloadTick := by
  unfold Obligations.TxPayloadTick
  exact ⟨rfl, fun s => ⟨txSlot_running, txSlot_last⟩⟩

/-- Settles O19: a slot of the current byte's word, whose end compares the next index with the length. -/
theorem txDataTick : Obligations.TxDataTick := by
  unfold Obligations.TxDataTick
  refine ⟨rfl, fun s hst hi => ?_⟩
  rw [show exec .txData s = execTxData s from rfl, execTxData_of_lt hi]
  refine ⟨txSlot_running, fun h1 hpos => ?_⟩
  rw [txSlot_last h1 hpos]
  simp only [finishTxData, State.enterPhase, index_succ_eq_iff hi, hst]

/-- Settles O20: a slot of the leadout word, whose end reloads nothing. -/
theorem txLeadoutTick : Obligations.TxLeadoutTick := by
  unfold Obligations.TxLeadoutTick
  refine ⟨rfl, fun s => ?_⟩
  rw [← leadoutWord_eq_ofNat]
  exact ⟨txSlot_running, txSlot_last⟩

end Sys2Proof
end

section
/-! The receive ticks (R190 to R202): a slot's ticks, the rules one by one, and that no tick reads `phaseReq`. -/

namespace Sys2Proof.Machine

open Sys2Proof

variable {s t u : State} {fin : Byte → State → Host.Outcome State Fault Refusal}

/-! ### A slot's ticks -/

@[simp] theorem rxSample_bitTimer (k : Nat) (b : Bool) (s : State) : (rxSample k b s).bitTimer = s.bitTimer := by
  obtain ⟨_, _, he⟩ := rxSample_cases k b s
  rw [he]

/-- A tick before the slot's last, with what its sample makes of the link. -/
theorem rxSlot_running (h : 2 ≤ s.bitTimer) (h' : s.bitTimer ≤ s.cfg.tbyte)
    (hu : rxSample (s.cfg.tbyte - s.bitTimer) s.lineIn s = u) :
    rxSlot fin s = .next { u with bitTimer := s.bitTimer - 1 } := by
  subst hu
  simp only [rxSlot, slotTick_of_bounds (by omega : 1 ≤ s.bitTimer) h', rxSample_bitTimer]
  rw [if_neg (by omega)]

/-- The slot's last tick, with what its sample makes of the link. -/
theorem rxSlot_last (h : s.bitTimer = 1) (h' : 1 ≤ s.cfg.tbyte) (hu : rxSample (s.cfg.tbyte - 1) s.lineIn s = u) :
    rxSlot fin s = fin (wireDecode s.cfg u.shiftReg) u := by
  subst hu
  simp only [rxSlot, slotTick_of_bounds h.ge (h.le.trans h'), rxSample_bitTimer, rxSample_cfg, h, if_true]

theorem two_le_wireLength (c : Coding) : 2 ≤ c.wireLength := by cases c <;> decide

theorem tbyte_pos_of_valid {cfg : Config} (h : cfg.Valid) : 1 ≤ cfg.tbyte := by
  obtain ⟨hw, -⟩ := h
  have := two_le_wireLength cfg.coding
  omega

/-- A rule that runs a slot acts before the slot's end as R195 says, whatever its end does. -/
theorem slotTicks_of_rxSlot {i : Instr} (hrule : exec i s = rxSlot fin s.beginRx) : SlotTicks i s := by
  intro h2 hle k w
  have hw : 2 ≤ w := two_le_wireLength _
  rw [hrule]
  refine ⟨fun h0 => ?_, fun h1 hk => ?_, fun hk => ?_⟩
  · have hsample : rxSample k s.lineIn s.beginRx = { s.beginRx with shiftReg := 0, phaseReq := true } := by
      rw [h0, rxSample_framing]
    exact rxSlot_running (s := s.beginRx) h2 hle hsample
  · exact rxSlot_running (s := s.beginRx) h2 hle (rxSample_data (s := s.beginRx) h1 hk s.lineIn)
  · have hgap : w - 1 < k := by omega
    exact rxSlot_running (s := s.beginRx) h2 hle (rxSample_gap (s := s.beginRx) (by omega) hgap s.lineIn)

/-- The sample of a slot's last tick is the word's last bit where the slot has no gap, else it is ignored. -/
theorem rxSample_last (h : s.cfg.Valid) :
    rxSample (s.cfg.tbyte - 1) s.lineIn s = { s with shiftReg := lastShift s } := by
  obtain ⟨hle, -⟩ := h
  have hw : 2 ≤ s.cfg.coding.wireLength := two_le_wireLength _
  unfold lastShift
  split
  · have hbit : s.cfg.tbyte - 1 ≤ s.cfg.coding.wireLength - 1 := by omega
    exact rxSample_data (by omega) hbit s.lineIn
  · have hgap : s.cfg.coding.wireLength - 1 < s.cfg.tbyte - 1 := by omega
    exact rxSample_gap (by omega) hgap s.lineIn

/-- The last tick of a slot's rule ends the slot with the byte decoded from its data bits (R195). -/
theorem rxSlot_end (h : s.cfg.Valid) (h1 : s.bitTimer = 1) :
    rxSlot fin s.beginRx =
      fin (wireDecode s.cfg (lastShift s)) { s with phaseReq := false, shiftReg := lastShift s } :=
  rxSlot_last (s := s.beginRx) h1 (tbyte_pos_of_valid h) (rxSample_last (s := s.beginRx) h)

theorem finishRxData_of_lt (h : s.byteIndex.toNat < maxFrameSize) (v : Byte) :
    finishRxData v s =
      .next ({ s with
          frameBuffer := s.frameBuffer.write s.byteIndex.toNat v
          byteIndex := s.byteIndex + 1 }.enterPhase
        (if s.byteIndex + 1 = s.payloadLength then .leadout else s.st) s.cfg.tbyte) := by
  simp only [finishRxData, bufWrite_of_lt h]

/-! ### The lock-on tick -/

/-- A tick that hunts for a lock (R192, R193): a 1 counts, a 0 after exactly `N_SYNC/2` ones locks on, any other 0 clears. -/
theorem lockTick (s : State) :
    (s.lineIn = true →
      lockStep s.lineIn s.beginRx =
        { s with phaseReq := false, lockCount := min (s.lockCount + 1) (s.cfg.nSync / 2 + 1) }) ∧
    (s.lineIn = false → s.lockCount = s.cfg.nSync / 2 →
      lockStep s.lineIn s.beginRx =
        { s with phaseReq := false, lockCount := 0, st := .sync, bitTimer := s.cfg.nSync / 2 - 1 }) ∧
    (s.lineIn = false → s.lockCount ≠ s.cfg.nSync / 2 →
      lockStep s.lineIn s.beginRx = { s with phaseReq := false, lockCount := 0 }) := by
  have hlevel : ∀ {b}, s.lineIn = b → lockStep s.lineIn s.beginRx = lockStep b s.beginRx := congrArg (lockStep · _)
  exact ⟨fun h => hlevel h, fun h hl => (hlevel h).trans (lockStep_lock (s := s.beginRx) hl),
    fun h hl => (hlevel h).trans (lockStep_reset (s := s.beginRx) hl)⟩

/-! ### What a receive tick does not read -/

/-- Every receive tick clears `phaseReq` before its rule reads it (R190). -/
theorem rxTick_ignoresPhaseReq {i : Instr} (hi : i.isRxTick = true) (s : State) (b : Bool) :
    exec i { s with phaseReq := b } = exec i s := by
  cases i with
  | rxReady | rxStart | rxSync | rxPayload | rxData | rxLeadout | rxRecv | rxError => rfl
  | _ => cases hi

end Sys2Proof.Machine

namespace Sys2Proof

open Sys2Proof.Machine

/-- Settles O29: a receive tick overwrites `phaseReq` at once, a transmit tick passes it on, and IDLE changes nothing. -/
theorem ticksIgnorePhaseReq : Obligations.TicksIgnorePhaseReq := by
  unfold Obligations.TicksIgnorePhaseReq
  intro i s t b hi h
  rcases hi with htx | hrx | ⟨k, rfl⟩
  · have hpass := txTick_ignoresReceiveSide htx s t s.lineIn b h
    obtain ⟨_, _, _, _, _, rfl, -⟩ := txTick_writes htx h
    exact ⟨b, hpass⟩
  · exact ⟨t.phaseReq, (rxTick_ignoresPhaseReq hrx s b).trans h⟩
  · obtain ⟨hlegal, rfl⟩ := execIdle_cases h
    exact ⟨b, if_neg (Nat.not_le.2 hlegal)⟩

/-- Settles O21: the rule is one assignment, without a case. -/
theorem rxStartTick : Obligations.RxStartTick := by
  unfold Obligations.RxStartTick
  exact ⟨rfl, fun _ => rfl⟩

/-- Settles O22: by the three cases of the lock-on step. -/
theorem rxReadyTick : Obligations.RxReadyTick := by
  unfold Obligations.RxReadyTick
  refine ⟨rfl, fun s => ?_⟩
  obtain ⟨hone, hlock, hclear⟩ := lockTick s
  exact ⟨fun h => congrArg _ (hone h), fun h hl => congrArg _ (hlock h hl), fun h hl => congrArg _ (hclear h hl)⟩

/-- Settles O23: a countdown whose end opens the count's slot. -/
theorem rxSyncTick : Obligations.RxSyncTick := by
  unfold Obligations.RxSyncTick
  refine ⟨rfl, fun s => ?_⟩
  rw [show exec .rxSync s = execRxSync s from rfl, execRxSync]
  exact ⟨fun h => countdown_running (s := s.beginRx) h, fun h => countdown_last (s := s.beginRx) h⟩

/-- Settles O24: a slot whose end tests the count. -/
theorem rxPayloadTick : Obligations.RxPayloadTick := by
  unfold Obligations.RxPayloadTick
  refine ⟨rfl, fun s hv => ⟨slotTicks_of_rxSlot rfl, fun h1 => ?_⟩⟩
  rw [show exec .rxPayload s = rxSlot finishRxPayload s.beginRx from rfl, rxSlot_end hv h1]
  intro v
  rw [BitVec.ofNat_toNat]
  exact ⟨fun hlow hhigh => if_pos ⟨hlow, hhigh⟩, fun hout => if_neg (by omega)⟩

/-- Settles O25: a slot whose end stores the byte inside the buffer. -/
theorem rxDataTick : Obligations.RxDataTick := by
  unfold Obligations.RxDataTick
  refine ⟨rfl, fun s hv => ⟨slotTicks_of_rxSlot rfl, fun hwf h1 hst hi =>
    ⟨s.frameBuffer.write s.byteIndex.toNat (wireDecode s.cfg (lastShift s)), ?_, ?_, fun a ha => ?_⟩⟩⟩
  · rw [show exec .rxData s = rxSlot finishRxData s.beginRx from rfl, rxSlot_end hv h1]
    simp only [finishRxData_of_lt, hi, State.enterPhase, index_succ_eq_iff hi, hst]
  · rw [Memory.read_write hwf, if_pos rfl]
  · rw [Memory.read_write hwf, if_neg ha]

/-- Settles O26: a slot whose end ignores the byte. -/
theorem rxLeadoutTick : Obligations.RxLeadoutTick := by
  unfold Obligations.RxLeadoutTick
  exact ⟨rfl, fun s hv => ⟨slotTicks_of_rxSlot rfl, fun h1 => rxSlot_end hv h1⟩⟩

/-- Settles O27: ERROR and a RECV that holds its frame clear `phaseReq`; a RECV that may be overwritten hunts for a lock. -/
theorem rxRecvAndErrorTicks : Obligations.RxRecvAndErrorTicks := by
  unfold Obligations.RxRecvAndErrorTicks
  refine ⟨rfl, rfl, fun s => ⟨rfl, fun hhold => if_neg (by simp [hhold]), fun hover => ?_⟩⟩
  rw [show exec .rxRecv s = .next (lockStep s.lineIn s.beginRx) from if_pos hover]
  obtain ⟨hone, hlock, hclear⟩ := lockTick s
  exact ⟨fun h => congrArg _ (hone h), fun h hl => congrArg _ (hlock h hl), fun h hl => congrArg _ (hclear h hl)⟩

end Sys2Proof
end

section
/-! A frame over the aligned channel (R204, R318): where the receiver stands when the transmitter has run `j` ticks of its
frame (`RxAt`), what one more tick with the waveform's level makes of that, and the two links together. -/

namespace Sys2Proof.Machine

open Sys2Proof

variable {a r u : State} {fin : Byte → State → Host.Outcome State Fault Refusal}

/-! ### A wire word in the shift register -/

/-- What `shiftReg` holds after `k` ticks of a slot with the word `w` of `len` bits, the framing bit left out (R195). -/
def heardBits (len : Nat) (w : BitVec 11) (k : Nat) : BitVec 10 :=
  BitVec.ofNat 10 (w.toNat % 2 ^ (len - 1) / 2 ^ (len - k))

theorem heardBits_of_le {len k : Nat} (h : len ≤ k) (w : BitVec 11) : heardBits len w k = dataBits len w := by
  rw [heardBits, Nat.sub_eq_zero_of_le h, Nat.pow_zero, Nat.div_one]
  rfl

theorem heardBits_one (len : Nat) (w : BitVec 11) : heardBits len w 1 = 0 := by
  rw [heardBits, Nat.div_eq_of_lt (Nat.mod_lt _ (Nat.two_pow_pos _))]
  rfl

theorem wireLength_le (c : Coding) : c.wireLength ≤ 11 := by cases c <;> decide

/-- Shifting in the word's next bit. -/
theorem shiftIn_heardBits (cfg : Config) (w : BitVec 11) {k : Nat} (h1 : 1 ≤ k) (hk : k < wireLength cfg) :
    shiftIn cfg (heardBits (wireLength cfg) w k) (slotBit cfg w k) = heardBits (wireLength cfg) w (k + 1) := by
  have hlen : wireLength cfg ≤ 11 := wireLength_le _
  obtain ⟨m, hm⟩ : ∃ m, wireLength cfg = k + m + 1 := ⟨wireLength cfg - (k + 1), by omega⟩
  rw [shiftIn, heardBits, heardBits, hm, Nat.add_sub_cancel, show k + m + 1 - k = m + 1 by omega,
    show k + m + 1 - (k + 1) = m by omega]
  have hbit : (slotBit cfg w k).toNat = w.toNat % 2 ^ (k + m) / 2 ^ m % 2 := by
    rw [slotBit, slotBitAs, if_pos hk, hm, show k + m + 1 - 1 - k = m by omega, ← Nat.toNat_testBit,
      Nat.testBit_mod_two_pow, decide_eq_true (by omega), Bool.true_and, BitVec.testBit_toNat]
  have hlt : w.toNat % 2 ^ (k + m) < 2 ^ (k + m) := Nat.mod_lt _ (Nat.two_pow_pos _)
  have hwidth : 2 ^ (k + m) ≤ 2 ^ 10 := Nat.pow_le_pow_right two_pos (by omega)
  generalize w.toNat % 2 ^ (k + m) = x at *
  have hquot : ∀ n, x / 2 ^ n ≤ x := fun n => Nat.div_le_self _ _
  have hnext : 2 * (x / 2 ^ (m + 1)) + x / 2 ^ m % 2 = x / 2 ^ m := by
    rw [Nat.pow_succ, ← Nat.div_div_eq_div_mul, Nat.div_add_mod]
  rw [BitVec.toNat_ofNat, Nat.mod_eq_of_lt ((hquot _).trans_lt (hlt.trans_le hwidth)), hbit, hnext,
    Nat.mod_eq_of_lt ((hquot _).trans_lt hlt)]

/-- Slot tick `k`, hearing the slot's own level, leaves in `shiftReg` what `k + 1` ticks of the slot bring (R195). -/
theorem rxSample_slotBit {w : BitVec 11} {k : Nat} (h : 1 ≤ k → u.shiftReg = heardBits (wireLength u.cfg) w k) :
    ∃ p, rxSample k (slotBit u.cfg w k) u =
      { u with shiftReg := heardBits (wireLength u.cfg) w (k + 1), phaseReq := p } := by
  rcases Nat.eq_zero_or_pos k with rfl | h1
  · exact ⟨true, by rw [rxSample_framing, heardBits_one]⟩
  refine ⟨u.phaseReq, ?_⟩
  rcases Nat.lt_or_ge k (wireLength u.cfg) with hdata | hgap
  · rw [rxSample_data h1 (by omega), h h1, shiftIn_heardBits u.cfg w h1 hdata]
  · rw [rxSample_gap h1 (by omega), heardBits_of_le (by omega), ← heardBits_of_le hgap w, ← h h1]

/-- A tick of a slot after `k` of them, all of which heard the slot's own levels: it goes on, or ends with the word's byte. -/
theorem rxSlot_after {w : BitVec 11} {k : Nat} (hw : wireLength u.cfg ≤ u.cfg.tbyte) (hk : k < u.cfg.tbyte)
    (htimer : u.bitTimer = u.cfg.tbyte - k) (hline : u.lineIn = slotBit u.cfg w k)
    (hshift : 1 ≤ k → u.shiftReg = heardBits (wireLength u.cfg) w k) :
    ∃ p, rxSlot fin u =
      if k + 1 = u.cfg.tbyte then
        fin (wireDecode u.cfg (dataBits (wireLength u.cfg) w))
          { u with shiftReg := dataBits (wireLength u.cfg) w, phaseReq := p }
      else
        .next { u with
          shiftReg := heardBits (wireLength u.cfg) w (k + 1)
          phaseReq := p
          bitTimer := u.cfg.tbyte - (k + 1) } := by
  obtain ⟨p, hp⟩ := rxSample_slotBit hshift
  rw [← hline] at hp
  refine ⟨p, ?_⟩
  split
  · rename_i hlast
    have hsample := hp
    rw [show k = u.cfg.tbyte - 1 by omega, show u.cfg.tbyte - 1 + 1 = u.cfg.tbyte by omega, heardBits_of_le hw] at hsample
    exact rxSlot_last (by omega) (by omega) hsample
  · have hsample : rxSample (u.cfg.tbyte - u.bitTimer) u.lineIn u = _ :=
      (congrArg (rxSample · u.lineIn u) (by omega : u.cfg.tbyte - u.bitTimer = k)).trans hp
    rw [rxSlot_running (by omega) (by omega) hsample, htimer, Nat.sub_sub]

/-! ### Where the receiver stands in the frame -/

/-- The receiver `r` can hear a frame of `a`: the parameters agree and it ticks (R204). -/
structure Listens (a r : State) : Prop where
  sameLine : SameLine r.cfg a.cfg
  dir : r.dir = .receive
  enabled : r.tickEnable = true
  notSpinning : r.spin = none
  bufferWf : r.frameBuffer.wf = true

theorem Listens.tbyte_eq (h : Listens a r) : r.cfg.tbyte = a.cfg.tbyte := by
  obtain ⟨-, htbyte, -⟩ := h.sameLine
  exact htbyte

/-- The receiver `r` in slot `i` of the frame after `k` of its ticks: the count has opened the frame, and what the slots
before have brought stands in the registers. -/
structure RxSlotAt (a : State) (i k : Nat) (r : State) : Prop where
  slot_le : i ≤ a.payloadLength.toNat + 1
  tick_lt : k < a.cfg.tbyte
  opened : 1 ≤ i → 1 ≤ a.payloadLength.toNat
  st : r.st = slotState a.payloadLength.toNat i
  timer : r.bitTimer = a.cfg.tbyte - k
  shift : 1 ≤ k → r.shiftReg = heardBits (wireLength a.cfg) (slotWord a i) k
  length : 1 ≤ i → r.payloadLength = a.payloadLength
  index : 1 ≤ i → i ≤ a.payloadLength.toNat → r.byteIndex.toNat + 1 = i
  bytes : ∀ m, m + 1 < i → r.frameBuffer.read m = a.frameBuffer.read m

/-- The receiver `r` after the ticks that take `a`, which starts the frame, to tick `j` of it: before the frame, hunting
through `i` ticks of the strobe or `i` ones of the sync, `i` ticks into the sync's low half, in slot `i` after `k` ticks of
it, in ERROR after an empty frame's count, or holding the frame in RECV. -/
inductive RxAt (a : State) : Nat → State → Prop where
  | start {r : State} (h : r.st = .start ∨ r.st = .ready ∧ r.lockCount ≠ r.cfg.nSync / 2) : RxAt a 0 r
  | strobe {i : Nat} {r : State} (hi : i < a.cfg.nStrobe) (hst : r.st = .ready) (hlock : r.lockCount = i % 2) :
      RxAt a (1 + i) r
  | ones {i : Nat} {r : State} (hi : i ≤ a.cfg.nSync / 2) (hst : r.st = .ready) (hlock : r.lockCount = i) :
      RxAt a (1 + a.cfg.nStrobe + i) r
  | sync {i : Nat} {r : State} (h1 : 1 ≤ i) (hi : i < a.cfg.nSync / 2) (hst : r.st = .sync)
      (htimer : r.bitTimer = a.cfg.nSync / 2 - i) : RxAt a (1 + a.cfg.nStrobe + a.cfg.nSync / 2 + i) r
  | slot {i k : Nat} {r : State} (h : RxSlotAt a i k r) : RxAt a (slotStart a i + k) r
  | error {j : Nat} {r : State} (hempty : a.payloadLength.toNat = 0) (hj : slotStart a 1 ≤ j) (hst : r.st = .error) :
      RxAt a j r
  | done {r : State} (hopen : 1 ≤ a.payloadLength.toNat) (hst : r.st = .recv) (hlen : r.payloadLength = a.payloadLength)
      (hbytes : ∀ m, m < a.payloadLength.toNat → r.frameBuffer.read m = a.frameBuffer.read m) :
      RxAt a (frameTicks a.cfg a.payloadLength.toNat) r

/-- A slot starts with its state's countdown, and its word has not begun to come in. -/
theorem rxAt_slotStart {i : Nat} (hpos : 1 ≤ a.cfg.tbyte) (hi : i ≤ a.payloadLength.toNat + 1)
    (hopen : 1 ≤ i → 1 ≤ a.payloadLength.toNat) (hst : r.st = slotState a.payloadLength.toNat i)
    (htimer : r.bitTimer = a.cfg.tbyte) (hlen : 1 ≤ i → r.payloadLength = a.payloadLength)
    (hindex : 1 ≤ i → i ≤ a.payloadLength.toNat → r.byteIndex.toNat + 1 = i)
    (hbytes : ∀ m, m + 1 < i → r.frameBuffer.read m = a.frameBuffer.read m) : RxAt a (slotStart a i) r :=
  RxAt.slot (k := 0) ⟨hi, hpos, hopen, hst, htimer, nofun, hlen, hindex, hbytes⟩

/-- The receiver takes one tick at the level of the waveform and stands one tick further in the frame. -/
def Follows (a : State) (j : Nat) (r : State) : Prop :=
  ∃ u, runTick (waveform a j) r = .next u ∧ Listens a u ∧ RxAt a (j + 1) u

section Tick

variable (hl : Listens a r)
include hl

/-- The receiver's state selects the rule of its tick (R100). -/
theorem runTick_listening (level : Bool) {st : LinkState} (hst : r.st = st) :
    runTick level r = exec (decodeRxKey st.code) (tickEntry level r) := by
  have hkey : r.key = dispatchKey .receive st := by rw [State.key, hl.dir, hst]
  rw [runTick_enabled level hl.enabled hl.notSpinning, hkey, decodeTick_receive]

/-! ### Hunting for the lock -/

theorem runTick_hunting (level : Bool) (hst : r.st = .ready) :
    runTick level r = .next (lockStep (tickEntry level r).lineIn (tickEntry level r).beginRx) :=
  runTick_listening hl level hst

theorem hunt_one (hst : r.st = .ready) (hlock : r.lockCount ≤ r.cfg.nSync / 2) :
    ∃ u, runTick true r = .next u ∧ Listens a u ∧ u.st = .ready ∧ u.lockCount = r.lockCount + 1 := by
  obtain ⟨hone, -, -⟩ := lockTick (tickEntry true r)
  refine ⟨_, (runTick_hunting hl true hst).trans (congrArg Host.Outcome.next (hone rfl)), { hl with }, hst, ?_⟩
  exact Nat.min_eq_left (Nat.succ_le_succ hlock)

theorem hunt_lock (hst : r.st = .ready) (hlock : r.lockCount = r.cfg.nSync / 2) :
    ∃ u, runTick false r = .next u ∧ Listens a u ∧ u.st = .sync ∧ u.bitTimer = r.cfg.nSync / 2 - 1 := by
  obtain ⟨-, hlocks, -⟩ := lockTick (tickEntry false r)
  exact ⟨_, (runTick_hunting hl false hst).trans (congrArg Host.Outcome.next (hlocks rfl hlock)), { hl with }, rfl, rfl⟩

theorem hunt_clear (hst : r.st = .ready) (hlock : r.lockCount ≠ r.cfg.nSync / 2) :
    ∃ u, runTick false r = .next u ∧ Listens a u ∧ u.st = .ready ∧ u.lockCount = 0 := by
  obtain ⟨-, -, hclear⟩ := lockTick (tickEntry false r)
  exact ⟨_, (runTick_hunting hl false hst).trans (congrArg Host.Outcome.next (hclear rfl hlock)), { hl with }, hst, rfl⟩

variable (hs : StartsAFrame a)
include hs

theorem rxAt_tick_start (h : r.st = .start ∨ r.st = .ready ∧ r.lockCount ≠ r.cfg.nSync / 2) : Follows a 0 r := by
  obtain ⟨⟨-, ⟨hpos, -⟩, -⟩, -⟩ := hs
  have hnext : ∀ u, u.st = .ready → u.lockCount = 0 → RxAt a 1 u := fun u hst hlock =>
    RxAt.strobe (i := 0) (by omega) hst hlock
  rcases h with hst | ⟨hst, hlock⟩
  · exact ⟨_, runTick_listening hl false hst, { hl with }, hnext _ rfl rfl⟩
  · obtain ⟨u, hu, hlu, hst', hlock'⟩ := hunt_clear hl hst hlock
    exact ⟨u, hu, hlu, hnext u hst' hlock'⟩

/-- The strobe's ones stand alone, and a lock takes at least two (R9, R193). -/
theorem rxAt_tick_strobe {i : Nat} (hi : i < a.cfg.nStrobe) (hst : r.st = .ready) (hlock : r.lockCount = i % 2) :
    Follows a (1 + i) r := by
  obtain ⟨⟨-, ⟨-, heven⟩, ⟨hmin, -⟩, -⟩, -⟩ := hs
  obtain ⟨-, -, -, hsync, -⟩ := hl.sameLine
  unfold Follows
  rw [waveform_strobe hi]
  rcases Nat.mod_two_eq_zero_or_one i with h0 | h1
  · obtain ⟨u, hu, hlu, hst', hlock'⟩ := hunt_one hl hst (by omega)
    rw [decide_eq_true h0]
    exact ⟨u, hu, hlu, RxAt.strobe (i := i + 1) (by omega) hst' (by omega)⟩
  · obtain ⟨u, hu, hlu, hst', hlock'⟩ := hunt_clear hl hst (by omega)
    rw [decide_eq_false (by omega)]
    refine ⟨u, hu, hlu, ?_⟩
    rcases Nat.lt_or_ge (i + 1) a.cfg.nStrobe with hmore | hlast
    · exact RxAt.strobe (i := i + 1) hmore hst' (by omega)
    · rw [show 1 + i + 1 = 1 + a.cfg.nStrobe + 0 by omega]
      exact RxAt.ones (Nat.zero_le _) hst' hlock'

/-- The sync's high half holds just the ones that lock on at the zero after them (R193). -/
theorem rxAt_tick_ones {i : Nat} (hi : i ≤ a.cfg.nSync / 2) (hst : r.st = .ready) (hlock : r.lockCount = i) :
    Follows a (1 + a.cfg.nStrobe + i) r := by
  obtain ⟨⟨-, -, ⟨hmin, -⟩, -⟩, -⟩ := hs
  obtain ⟨-, -, -, hsync, -⟩ := hl.sameLine
  unfold Follows
  rw [waveform_sync (by omega)]
  rcases Nat.lt_or_ge i (a.cfg.nSync / 2) with hmore | hlast
  · obtain ⟨u, hu, hlu, hst', hlock'⟩ := hunt_one hl hst (by omega)
    rw [decide_eq_true hmore]
    exact ⟨u, hu, hlu, RxAt.ones (i := i + 1) hmore hst' (by omega)⟩
  · obtain rfl : i = a.cfg.nSync / 2 := by omega
    obtain ⟨u, hu, hlu, hst', htimer⟩ := hunt_lock hl hst (by omega)
    rw [decide_eq_false (lt_irrefl _)]
    exact ⟨u, hu, hlu, RxAt.sync (i := 1) le_rfl (by omega) hst' (by omega)⟩

/-- The rest of the low half passes in SYNC, whose end opens the count's slot (R194). -/
theorem rxAt_tick_sync {i : Nat} (h1 : 1 ≤ i) (hi : i < a.cfg.nSync / 2) (hst : r.st = .sync)
    (htimer : r.bitTimer = a.cfg.nSync / 2 - i) : Follows a (1 + a.cfg.nStrobe + a.cfg.nSync / 2 + i) r := by
  obtain ⟨hv, -⟩ := hs
  have hpos := tbyte_pos_of_valid hv
  obtain ⟨-, -, ⟨-, heven⟩, -⟩ := hv
  unfold Follows
  generalize waveform a _ = level
  rw [runTick_listening hl level hst, show exec (decodeRxKey LinkState.sync.code) (tickEntry level r) =
      execRxSync (tickEntry level r) from rfl, execRxSync, countdown_after (u := (tickEntry level r).beginRx) hi htimer]
  split
  · rename_i hlast
    rw [show 1 + a.cfg.nStrobe + a.cfg.nSync / 2 + i + 1 = slotStart a 0 by unfold slotStart; omega]
    exact ⟨_, rfl, { hl with }, rxAt_slotStart hpos (Nat.zero_le _) nofun rfl hl.tbyte_eq nofun nofun nofun⟩
  · exact ⟨_, rfl, { hl with }, RxAt.sync (i := i + 1) (by omega) (by omega) hst rfl⟩

/-! ### Receiving the slots -/

omit hs in
theorem wireDecode_heard (hv : a.cfg.Valid) (b : Byte) :
    wireDecode r.cfg (dataBits (wireLength r.cfg) (wireEncode a.cfg b)) = b := by
  obtain ⟨-, -, -, hlc, -⟩ := hv
  obtain ⟨hcoding, -, -, -, hcode⟩ := hl.sameLine
  rw [wireDecode, wireLength, hcoding, hcode]
  exact wireDecodeAs_wireEncodeAs a.cfg.coding hlc b

/-- A tick of slot `i` under a rule that runs a slot and whose end, with the byte the slot's word decodes to, leaves the
receiver at the start of what follows. -/
theorem rxAt_tick_of_slotRule {i k : Nat} (h : RxSlotAt a i k r)
    (hrule : ∀ v, exec (decodeRxKey (slotState a.payloadLength.toNat i).code) v = rxSlot fin v.beginRx)
    (hend : ∀ level x p, ∃ u,
      fin (wireDecode r.cfg (dataBits (wireLength r.cfg) (slotWord a i)))
        { r with lineIn := level, shiftReg := x, phaseReq := p } = .next u ∧
      Listens a u ∧ RxAt a (slotStart a (i + 1)) u) : Follows a (slotStart a i + k) r := by
  obtain ⟨⟨hw, -⟩, -⟩ := hs
  obtain ⟨hcoding, htbyte, -⟩ := hl.sameLine
  have hlength : wireLength r.cfg = wireLength a.cfg := congrArg Coding.wireLength hcoding
  have hlevel : waveform a (slotStart a i + k) = slotBit r.cfg (slotWord a i) k := by
    rw [waveform_slot h.tick_lt, slotBit, slotBit, hlength]
  have hshift := h.shift
  rw [← hlength] at hshift
  obtain ⟨p, hp⟩ := rxSlot_after (fin := fin) (u := (tickEntry (waveform a (slotStart a i + k)) r).beginRx)
    (show wireLength r.cfg ≤ r.cfg.tbyte by rw [hlength, htbyte]; exact hw) (htbyte ▸ h.tick_lt)
    (htbyte ▸ h.timer) hlevel hshift
  unfold Follows
  rw [runTick_listening hl _ h.st, hrule, hp]
  split
  · rename_i hlast
    rw [Nat.add_assoc, show k + 1 = a.cfg.tbyte from hlast.trans htbyte, ← slotStart_succ]
    exact hend _ _ _
  · rename_i hmore
    refine ⟨_, rfl, { hl with }, RxAt.slot (k := k + 1) ?_⟩
    exact
      { h with
        tick_lt := lt_of_le_of_ne h.tick_lt fun hlast => hmore (hlast.trans htbyte.symm)
        timer := congrArg (· - (k + 1)) htbyte
        shift := fun _ => by rw [← hlength]; rfl }

/-- The count's slot ends in the first byte's slot, or in ERROR where the frame is empty (R196). -/
theorem rxAt_tick_payload {k : Nat} (h : RxSlotAt a 0 k r) : Follows a (slotStart a 0 + k) r := by
  have ⟨hv, _, _, _, _, hlen⟩ := hs
  refine rxAt_tick_of_slotRule hl hs (fin := finishRxPayload) h (fun _ => rfl) fun level x p => ?_
  have hcount : (a.payloadLength.zeroExtend 8).toNat = a.payloadLength.toNat := by
    rw [BitVec.toNat_setWidth, Nat.mod_eq_of_lt (by omega)]
  have hback : (a.payloadLength.zeroExtend 8).setWidth 6 = a.payloadLength := by bv_omega
  rw [slotWord_zero, wireDecode_heard hl hv]
  rcases Nat.eq_zero_or_pos a.payloadLength.toNat with hempty | hpos
  · exact ⟨_, if_neg (by omega), { hl with }, RxAt.error hempty le_rfl rfl⟩
  · exact ⟨_, if_pos (by omega), { hl with },
      rxAt_slotStart (tbyte_pos_of_valid hv) (by omega) (fun _ => hpos) (slotState_byte le_rfl hpos).symm hl.tbyte_eq
        (fun _ => hback) (fun _ _ => rfl) (by omega)⟩

/-- A byte's slot stores it and ends in the next byte's, or the leadout's (R197). -/
theorem rxAt_tick_data {i k : Nat} (h1 : 1 ≤ i) (hi : i ≤ a.payloadLength.toNat) (h : RxSlotAt a i k r) :
    Follows a (slotStart a i + k) r := by
  have ⟨hv, _, _, _, _, hlen⟩ := hs
  have hindex := h.index h1 hi
  have hlt : r.byteIndex.toNat < maxFrameSize := by omega
  have hentered : (if r.byteIndex + 1 = r.payloadLength then .leadout else r.st) =
      slotState a.payloadLength.toNat (i + 1) := by
    have hlast : r.byteIndex + 1 = r.payloadLength ↔ a.payloadLength.toNat < i + 1 := by
      rw [h.length h1]
      bv_omega
    rw [h.st, slotState_byte h1 hi, ite_eq_slotState (by omega) hlast]
  have hnext : (r.byteIndex + 1).toNat + 1 = i + 1 := by bv_omega
  have hstored : ∀ m, m + 1 < i + 1 →
      (r.frameBuffer.write r.byteIndex.toNat (a.frameBuffer.read (i - 1))).read m = a.frameBuffer.read m := by
    intro m hm
    rw [Memory.read_write hl.bufferWf]
    split
    · rw [show m = i - 1 by omega]
    · exact h.bytes m (by omega)
  refine rxAt_tick_of_slotRule hl hs (fin := finishRxData) h (fun _ => by rw [slotState_byte h1 hi]; rfl)
    fun level x p => ?_
  rw [slotWord_byte h1 hi, wireDecode_heard hl hv]
  exact ⟨_, finishRxData_of_lt (s := { r with lineIn := level, shiftReg := x, phaseReq := p }) hlt _,
    { hl with bufferWf := Memory.wf_write hl.bufferWf hlt },
    rxAt_slotStart (tbyte_pos_of_valid hv) (by omega) (fun _ => h1.trans hi) hentered hl.tbyte_eq
      (fun _ => h.length h1) (fun _ _ => hnext) hstored⟩

/-- The leadout's slot ends the frame, whatever it brings (R198). -/
theorem rxAt_tick_leadout {k : Nat} (h : RxSlotAt a (a.payloadLength.toNat + 1) k r) :
    Follows a (slotStart a (a.payloadLength.toNat + 1) + k) r := by
  have hlead := slotState_leadout (Nat.succ_pos _) (Nat.lt_succ_self a.payloadLength.toNat)
  refine rxAt_tick_of_slotRule hl hs (fin := finishRxLeadout) h (fun _ => by rw [hlead]; rfl) fun level x p => ?_
  exact ⟨_, rfl, { hl with }, RxAt.done (h.opened (Nat.succ_pos _)) rfl (h.length (Nat.succ_pos _)) fun m hm =>
    h.bytes m (Nat.succ_lt_succ hm)⟩

/-- A tick at the waveform's level takes the receiver one tick further in the frame. -/
theorem rxAt_tick {j : Nat} (h : RxAt a j r) (hj : j < frameTicks a.cfg a.payloadLength.toNat) : Follows a j r := by
  cases h with
  | start h => exact rxAt_tick_start hl hs h
  | strobe hi hst hlock => exact rxAt_tick_strobe hl hs hi hst hlock
  | ones hi hst hlock => exact rxAt_tick_ones hl hs hi hst hlock
  | sync h1 hi hst htimer => exact rxAt_tick_sync hl hs h1 hi hst htimer
  | @slot i k _ h =>
    rcases Nat.eq_zero_or_pos i with rfl | h1
    · exact rxAt_tick_payload hl hs h
    rcases Nat.lt_or_ge a.payloadLength.toNat i with hlead | hbyte
    · obtain rfl : i = a.payloadLength.toNat + 1 := le_antisymm h.slot_le hlead
      exact rxAt_tick_leadout hl hs h
    · exact rxAt_tick_data hl hs h1 hbyte h
  | error hempty hj hst =>
    exact ⟨_, runTick_listening hl _ hst, { hl with }, RxAt.error hempty (by omega) hst⟩
  | done => exact absurd hj (lt_irrefl _)

end Tick

/-! ### Both links -/

theorem txAt_lineIn {j : Nat} {t : State} (h : TxAt a a.lineIn j t) : t.lineIn = a.lineIn := by
  cases h <;> rfl

theorem alignedTicks_one {t : State} (ht : runTick a.lineIn a = .next t) (hu : runTick t.lineOut r = .next u) :
    alignedTicks 1 ⟨a, [r]⟩ = .next ⟨t, [u]⟩ := by
  simp [alignedTicks, alignedTick, tickReceivers, ht, hu]

/-- In lockstep from the frame's start, both links stand where the frame does, to its last tick (R204). -/
theorem alignedTicks_at (hs : StartsAFrame a) (hl : Listens a r)
    (h0 : r.st = .start ∨ r.st = .ready ∧ r.lockCount ≠ r.cfg.nSync / 2) {j : Nat}
    (hj : j ≤ frameTicks a.cfg a.payloadLength.toNat) :
    ∃ t u, alignedTicks j ⟨a, [r]⟩ = .next ⟨t, [u]⟩ ∧ TxAt a a.lineIn j t ∧ Listens a u ∧ RxAt a j u := by
  induction j with
  | zero => exact ⟨a, r, rfl, .start, hl, .start h0⟩
  | succ j ih =>
    obtain ⟨t, u, hrun, htx, hlu, hrx⟩ := ih (by omega)
    obtain ⟨t', ht, htx', hlevel⟩ := txAt_tick hs htx hj
    obtain ⟨u', hu, hlu', hrx'⟩ := rxAt_tick hlu hs hrx hj
    rw [← txAt_lineIn htx] at ht
    rw [← hlevel] at hu
    exact ⟨t', u', (alignedTicks_add j 1 hrun).trans (alignedTicks_one ht hu), htx', hlu', hrx'⟩

/-! ### The states at a tick of the frame -/

/-- Tick `j` of the frame of `a` is one of slot `i`. -/
def InSlot (a : State) (i j : Nat) : Prop := slotStart a i ≤ j ∧ j < slotStart a (i + 1)

theorem slotStart_mono (a : State) {i i' : Nat} (h : i ≤ i') : slotStart a i ≤ slotStart a i' :=
  Nat.add_le_add_left (Nat.mul_le_mul_right _ h) _

theorem inSlot_add {i k : Nat} (hk : k < a.cfg.tbyte) : InSlot a i (slotStart a i + k) := by
  refine ⟨Nat.le_add_right _ _, ?_⟩
  rw [slotStart_succ]
  exact Nat.add_lt_add_left hk _

theorem inSlot_last (hpos : 1 ≤ a.cfg.tbyte) (i : Nat) : InSlot a i (slotStart a (i + 1) - 1) := by
  rw [slotStart_succ, Nat.add_sub_assoc hpos]
  exact inSlot_add (Nat.sub_lt hpos one_pos)

theorem InSlot.unique {i i' j : Nat} (h : InSlot a i j) (h' : InSlot a i' j) : i = i' := by
  have hbefore : ∀ {m m'}, InSlot a m j → InSlot a m' j → ¬ m < m' := fun hm hm' hlt =>
    absurd (hm.2.trans_le ((slotStart_mono a hlt).trans hm'.1)) (lt_irrefl j)
  exact Nat.le_antisymm (Nat.not_lt.1 (hbefore h' h)) (Nat.not_lt.1 (hbefore h h'))

theorem InSlot.lt_frameTicks {i j : Nat} (h : InSlot a i j) (hi : i ≤ a.payloadLength.toNat + 1) :
    j < frameTicks a.cfg a.payloadLength.toNat := h.2.trans_le (slotStart_mono a (Nat.succ_le_succ hi))

theorem count_end_eq_slotStart (a : State) : 1 + a.cfg.nStrobe + a.cfg.nSync + a.cfg.tbyte = slotStart a 1 := by
  rw [slotStart, Nat.one_mul]

/-- The lock falls into the sync's low half, before the count's slot. -/
theorem lock_le_slotStart (hs : StartsAFrame a) : 1 + a.cfg.nStrobe + a.cfg.nSync / 2 + 1 ≤ slotStart a 0 := by
  obtain ⟨⟨-, -, ⟨hmin, -⟩, -⟩, -⟩ := hs
  unfold slotStart
  omega

theorem slotState_eq_payload {n i : Nat} (h : slotState n i = .payload) : i = 0 := by
  by_contra hne
  rw [slotState, if_neg hne] at h
  split at h <;> cases h

section Position

variable {i j : Nat} {level : Bool} {t : State}

/-- In each slot of the frame the transmitter is in the slot's state. -/
theorem TxAt.st_of_inSlot (h : TxAt a level j t) (hi : i ≤ a.payloadLength.toNat + 1) (hin : InSlot a i j) :
    t.st = slotState a.payloadLength.toNat i := by
  obtain ⟨hlo, hhi⟩ := hin
  cases h with
  | start => unfold slotStart at hlo; omega
  | strobe hi => unfold slotStart at hlo; omega
  | sync hi => unfold slotStart at hlo; omega
  | slot _ hk =>
    rw [InSlot.unique ⟨hlo, hhi⟩ (inSlot_add hk)]
    rfl
  | done => exact absurd (InSlot.lt_frameTicks ⟨hlo, hhi⟩ hi) (lt_irrefl _)

theorem TxAt.inSlot_of_payload (hs : StartsAFrame a) (h : TxAt a level j t) (hst : t.st = .payload) : InSlot a 0 j := by
  cases h with
  | start =>
    obtain ⟨-, -, hstart, -⟩ := hs
    cases hstart.symm.trans hst
  | strobe | sync | done => cases hst
  | slot _ hk =>
    obtain rfl := slotState_eq_payload hst
    exact inSlot_add hk

/-- From the count's slot on the receiver is in a slot, or it is done with the frame: in ERROR where it is empty, else in
RECV at its end. -/
theorem RxAt.cases_of_le (hs : StartsAFrame a) (h : RxAt a j r) (hj : slotStart a 0 ≤ j) :
    (∃ i k, RxSlotAt a i k r ∧ j = slotStart a i + k) ∨
    a.payloadLength.toNat = 0 ∧ slotStart a 1 ≤ j ∧ r.st = .error ∨
    1 ≤ a.payloadLength.toNat ∧ j = frameTicks a.cfg a.payloadLength.toNat ∧ r.st = .recv ∧
      r.payloadLength = a.payloadLength ∧
      ∀ m, m < a.payloadLength.toNat → r.frameBuffer.read m = a.frameBuffer.read m := by
  obtain ⟨⟨-, -, ⟨hmin, -⟩, -⟩, -⟩ := hs
  cases h with
  | start => unfold slotStart at hj; omega
  | strobe hi => unfold slotStart at hj; omega
  | ones hi => unfold slotStart at hj; omega
  | sync _ hi => unfold slotStart at hj; omega
  | slot h => exact .inl ⟨_, _, h, rfl⟩
  | error hempty hj hst => exact .inr (.inl ⟨hempty, hj, hst⟩)
  | done hopen hst hlen hbytes => exact .inr (.inr ⟨hopen, rfl, hst, hlen, hbytes⟩)

/-- In each slot of the frame that a count opens the receiver is in the slot's state. -/
theorem RxAt.st_of_inSlot (hs : StartsAFrame a) (h : RxAt a j r) (hi : i ≤ a.payloadLength.toNat + 1)
    (hopen : 1 ≤ i → 1 ≤ a.payloadLength.toNat) (hin : InSlot a i j) : r.st = slotState a.payloadLength.toNat i := by
  have hfrom : slotStart a 0 ≤ j := (slotStart_mono a (Nat.zero_le i)).trans hin.1
  obtain ⟨_, k, hslot, rfl⟩ | ⟨hempty, hj, -⟩ | ⟨-, rfl, -⟩ := h.cases_of_le hs hfrom
  · rw [hin.unique (inSlot_add hslot.tick_lt)]
    exact hslot.st
  · obtain rfl : i = 0 := by omega
    exact absurd hj hin.2.not_ge
  · exact absurd (hin.lt_frameTicks hi) (lt_irrefl _)

theorem RxAt.inSlot_of_payload (h : RxAt a j r) (hst : r.st = .payload) : InSlot a 0 j := by
  cases h with
  | start h => rcases h with hst' | ⟨hst', -⟩ <;> cases hst'.symm.trans hst
  | strobe _ hst' | ones _ hst' | sync _ _ hst' | error _ _ hst' | done _ hst' => cases hst'.symm.trans hst
  | slot h =>
    obtain rfl := slotState_eq_payload (h.st.symm.trans hst)
    exact inSlot_add h.tick_lt

/-- After the sync's high half the receiver still hunts; the next tick is the lock (R193). -/
theorem RxAt.st_of_sync_half (hs : StartsAFrame a) (h : RxAt a j r) :
    (j = 1 + a.cfg.nStrobe + a.cfg.nSync / 2 → r.st = .ready) ∧
    (j = 1 + a.cfg.nStrobe + a.cfg.nSync / 2 + 1 → r.st = .sync) := by
  obtain ⟨⟨-, -, ⟨hmin, -⟩, -⟩, -⟩ := hs
  cases h with
  | start => exact ⟨by omega, by omega⟩
  | strobe _ hst => exact ⟨fun _ => hst, by omega⟩
  | ones _ hst => exact ⟨fun _ => hst, by omega⟩
  | sync _ _ hst => exact ⟨by omega, fun _ => hst⟩
  | slot | error _ hj =>
    unfold slotStart at *
    exact ⟨by omega, by omega⟩
  | done =>
    unfold frameTicks
    exact ⟨by omega, by omega⟩

/-- The count of an empty frame leaves the receiver in ERROR. -/
theorem RxAt.st_of_empty (hs : StartsAFrame a) (h : RxAt a (slotStart a 1) r) (hempty : a.payloadLength.toNat = 0) :
    r.st = .error := by
  obtain ⟨i, k, hslot, hj⟩ | ⟨-, -, hst⟩ | ⟨hopen, -⟩ := h.cases_of_le hs (slotStart_mono a (Nat.zero_le 1))
  · have hpos : 0 < a.cfg.tbyte := (Nat.zero_le k).trans_lt hslot.tick_lt
    have hi : i = 1 := InSlot.unique (hj ▸ inSlot_add hslot.tick_lt) (inSlot_add (k := 0) hpos)
    have hopen := hslot.opened hi.ge
    omega
  · exact hst
  · omega

/-- At the end of a frame that a count opened the receiver holds it. -/
theorem RxAt.holds_frame (hs : StartsAFrame a) (h : RxAt a (frameTicks a.cfg a.payloadLength.toNat) r)
    (hopen : 1 ≤ a.payloadLength.toNat) :
    r.st = .recv ∧ r.payloadLength = a.payloadLength ∧
      ∀ m, m < a.payloadLength.toNat → r.frameBuffer.read m = a.frameBuffer.read m := by
  obtain ⟨i, k, hslot, hj⟩ | ⟨hempty, -⟩ | ⟨-, -, hheld⟩ := h.cases_of_le hs (slotStart_mono a (Nat.zero_le _))
  · exact absurd hj (slotStart_add_lt_frameTicks hslot.slot_le hslot.tick_lt).ne'
  · omega
  · exact hheld

end Position

end Sys2Proof.Machine

namespace Sys2Proof

open Sys2Proof.Machine

/-- Settles O53: in lockstep both links stand where the frame does (`alignedTicks_at`), and each statement asks where that is
at one of its ticks. -/
theorem lockstepRoundTrip : Obligations.LockstepRoundTrip := by
  unfold Obligations.LockstepRoundTrip
  intro a r hs hline hdir hon hspin hwf h0 c n lock count total
  have hl : Listens a r := ⟨hline, hdir, hon, hspin, hwf⟩
  have hpos := tbyte_pos_of_valid hs.1
  have hcount : count = slotStart a 1 := count_end_eq_slotStart a
  have hwithin : slotStart a 1 ≤ total := slotStart_mono a (Nat.le_add_left 1 (n + 1))
  have hlock : lock ≤ total := (lock_le_slotStart hs).trans (slotStart_mono a (Nat.zero_le (n + 2)))
  clear_value count
  subst hcount
  refine ⟨?_, ?_, fun k hk => ?_, fun hn => ⟨?_, ?_⟩, fun hn => ⟨?_, ?_⟩⟩
  · obtain ⟨t, u, hrun, -, -, hrx⟩ := alignedTicks_at hs hl h0 ((Nat.sub_le lock 1).trans hlock)
    exact ⟨t, u, hrun, (hrx.st_of_sync_half hs).1 rfl⟩
  · obtain ⟨t, u, hrun, -, -, hrx⟩ := alignedTicks_at hs hl h0 hlock
    exact ⟨t, u, hrun, (hrx.st_of_sync_half hs).2 rfl⟩
  · obtain ⟨t, u, hrun, htx, -, hrx⟩ := alignedTicks_at hs hl h0 hk
    exact ⟨t, u, hrun, fun hst => hrx.st_of_inSlot hs (Nat.zero_le _) nofun (htx.inSlot_of_payload hs hst),
      fun hst => htx.st_of_inSlot (Nat.zero_le _) (hrx.inSlot_of_payload hst)⟩
  · obtain ⟨t, u, hrun, htx, -, hrx⟩ := alignedTicks_at hs hl h0 (Nat.sub_le total 1)
    have hin : InSlot a (n + 1) (total - 1) := inSlot_last hpos (n + 1)
    have hlead := slotState_leadout (Nat.succ_pos n) (Nat.lt_succ_self n)
    exact ⟨t, u, hrun, (htx.st_of_inSlot le_rfl hin).trans hlead,
      (hrx.st_of_inSlot hs le_rfl (fun _ => hn) hin).trans hlead⟩
  · obtain ⟨t, u, hrun, htx, -, hrx⟩ := alignedTicks_at hs hl h0 (le_refl total)
    obtain ⟨hlt, -⟩ | ⟨-, hready, -⟩ := txAt_ready hs htx
    · exact absurd hlt (lt_irrefl _)
    · exact ⟨t, u, hrun, hready, hrx.holds_frame hs hn⟩
  · obtain ⟨t, u, hrun, htx, -, hrx⟩ := alignedTicks_at hs hl h0 ((Nat.sub_le (slotStart a 1) 1).trans hwithin)
    have hin : InSlot a 0 (slotStart a 1 - 1) := inSlot_last hpos 0
    exact ⟨t, u, hrun, htx.st_of_inSlot (Nat.zero_le _) hin, hrx.st_of_inSlot hs (Nat.zero_le _) nofun hin⟩
  · obtain ⟨t, u, hrun, htx, -, hrx⟩ := alignedTicks_at hs hl h0 hwithin
    have hlead : slotState n 1 = .leadout := slotState_leadout le_rfl (hn ▸ Nat.zero_lt_one)
    exact ⟨t, u, hrun, (htx.st_of_inSlot (Nat.le_add_left 1 n) (inSlot_add (k := 0) hpos)).trans hlead,
      hrx.st_of_empty hs hn⟩

end Sys2Proof
end

section
/-! The control-surface commands (R230 to R238): the decoding of their codes, and what each command answers where its checks
pass and where they do not. -/

namespace Sys2Proof

/-- A code of 8 or more selects the reserved row, whatever stands in the operand record (R104). -/
theorem decodeCommand_reserved {code : BitVec 4} (h : 8 ≤ code.toNat) (ops : Operands) :
    decodeCommand code ops = .ok (.reservedCmd (code.extractLsb' 0 3)) := by
  obtain ⟨k, hk⟩ : ∃ k, code.toNat = k + 8 := ⟨_, (Nat.sub_add_cancel h).symm⟩
  rw [decodeCommand, hk]
  rfl

end Sys2Proof

namespace Sys2Proof.Machine

open Sys2Proof

variable {s : State}

/-! ### CONFIGURE -/

/-- The divisor of the tier that the rate selects (R232). -/
theorem divisor_prescaleOf (rate : Nat) :
    divisor (prescaleOf rate) = if rate ≥ 1000 then 64 else if rate ≥ 250 then 256 else 1024 := by
  rw [prescaleOf, apply_ite divisor, apply_ite divisor]
  rfl

/-- No compare value, where the quotient the rule forms is 0 or leaves a value that does not fit (R233). -/
theorem compareOf_none {cfg : Config} {rate q : Nat} (hq : cfg.fClk / divisor (prescaleOf rate) / rate = q)
    (h : q = 0 ∨ 2 ^ cfg.cmpWidth ≤ q - 1) : compareOf cfg rate = none := by
  simp only [compareOf, hq]
  obtain h0 | hwide := h
  · exact if_pos h0
  · rw [if_neg (Nat.not_lt.2 hwide), ite_self]

section Configure

variable {rate : Nat} {d : Dir} (hd : d ≠ .reserved)
include hd

theorem execConfigure_rate_rejected (h : rate < 100 ∨ rate > 5000) :
    execConfigure rate d s = .next (s.reply .configError) := by
  have hrate : rateOutOfRange rate = true := by simpa [rateOutOfRange] using h
  rw [execConfigure, if_neg hd, if_pos hrate]

theorem execConfigure_unfit (hlo : 100 ≤ rate) (hhi : rate ≤ 5000) (hc : compareOf s.cfg rate = none) :
    execConfigure rate d s = .refused .compareOutOfRange := by
  have hrate : ¬ rateOutOfRange rate = true := by simp [rateOutOfRange, hlo, hhi]
  simp only [execConfigure, if_neg hd, if_neg hrate, hc]

theorem execConfigure_configured (hlo : 100 ≤ rate) (hhi : rate ≤ 5000) {cmp : Nat}
    (hc : compareOf s.cfg rate = some cmp) :
    execConfigure rate d s =
      .next { s with
        dir := d, baud := BitVec.ofNat 13 rate, prescaler := prescaleOf rate, compare := cmp, st := .ready
        lockCount := 0, tcnt := 0, tickEnable := true, hostReturn := .result .ok } := by
  have hrate : ¬ rateOutOfRange rate = true := by simp [rateOutOfRange, hlo, hhi]
  simp only [execConfigure, if_neg hd, if_neg hrate, hc, State.reply]

end Configure

/-! ### TRANSMIT -/

theorem execTransmit_turned_away {n : Nat} {data : List Byte} {r : ResultCode} (h : transmitCheck s = some r) :
    execTransmit n data s = .next (s.reply r) := by
  simp only [execTransmit, h]

/-- In READY of a Transmit link, with bytes enough, TRANSMIT loads the truncated frame and starts (R234). -/
theorem execTransmit_started {n : Nat} {data : List Byte} (hd : s.dir = .transmit) (hs : s.st = .ready)
    (hlen : min n maxFrameSize ≤ data.length) :
    execTransmit n data s =
      .next { s with
        frameBuffer := s.frameBuffer.load 0 (data.take (min n maxFrameSize))
        payloadLength := BitVec.ofNat 6 (min n maxFrameSize), st := .start, tcnt := 0, hostReturn := .result .ok } := by
  have hcheck : transmitCheck s = none := by rw [transmitCheck, if_neg (not_not.2 hd), if_neg (not_not.2 hs)]
  simp only [execTransmit, hcheck, if_neg (Nat.not_lt.2 hlen), State.reply]

/-- The first `n` bytes of a sequence, loaded from index 0, stand there, and every later index reads as before. -/
theorem Memory.read_load_take {m : Memory} (h : m.wf = true) {n : Nat} (hn : n ≤ maxFrameSize) {data : List Byte}
    (hlen : n ≤ data.length) (i : Nat) :
    (m.load 0 (data.take n)).read i = if i < n then data.getD i 0 else m.read i := by
  have htake : (data.take n).length = n := List.length_take_of_le hlen
  rw [Memory.read_load h (by omega), htake]
  by_cases hi : i < n
  · rw [if_pos (by omega), if_pos hi, Nat.sub_zero]
    simp [hi]
  · rw [if_neg (by omega), if_neg hi]

/-! ### RECEIVE -/

/-- A RECEIVE that begins runs its check phase. -/
theorem execReceive_begun (hp : s.receivePending = false) : execReceive s = receiveCheckPhase s :=
  if_neg (Bool.eq_false_iff.1 hp)

/-- A check that ends RECEIVE with a code other than FrameError writes nothing (R235). -/
theorem execReceive_turned_away (hp : s.receivePending = false) {r : ResultCode} (hc : receiveCheck s = some r)
    (hr : r ≠ .frameError) : execReceive s = .next (s.reply r) := by
  rw [execReceive_begun hp, receiveCheckPhase, hc]
  cases r with
  | frameError => exact absurd rfl hr
  | _ => rfl

/-- The check that meets ERROR restarts the machine (R235). -/
theorem execReceive_error (hp : s.receivePending = false) (hd : s.dir = .receive) (hs : s.st = .error) :
    execReceive s = .next { s with st := .start, hostReturn := .result .frameError } := by
  have hcheck : receiveCheck s = some .frameError := by simp [receiveCheck, hd, hs]
  rw [execReceive_begun hp, receiveCheckPhase, hcheck]
  rfl

/-- With RECV_OVERWRITE a check that passes ends the step (R82, R345; log 4). -/
theorem execReceive_passed (hp : s.receivePending = false) (ho : s.cfg.recvOverwrite = true) (hd : s.dir = .receive)
    (hs : s.st = .recv) : execReceive s = .next { s with receivePending := true } := by
  have hcheck : receiveCheck s = none := by simp [receiveCheck, hd, hs]
  rw [execReceive_begun hp, receiveCheckPhase, hcheck]
  exact if_pos ho

/-- Outside ERROR the critical phase hands out the frame that the registers hold (R235, R345). -/
theorem receiveCritical_handsOut (he : s.st ≠ .error) (hlen : s.payloadLength.toNat ≤ maxFrameSize)
    (hcap : maxFrameSize ≤ s.outCapacity) :
    receiveCritical s =
      .next { s with
        receivePending := false
        st := .start
        hostReturn :=
          { code := some .ok, info := .frame s.payloadLength (s.frameBuffer.drain s.payloadLength.toNat) } } := by
  rw [receiveCritical, if_neg he, if_neg (Nat.not_lt.2 hlen), if_neg (Nat.not_lt.2 hcap)]
  rfl

end Sys2Proof.Machine

namespace Sys2Proof

open Sys2Proof.Machine

/-- Settles O31: by the rate, and for a rate in range by whether the quotient gives a compare value. -/
theorem configureFollowsItsRule : Obligations.ConfigureFollowsItsRule := by
  unfold Obligations.ConfigureFollowsItsRule
  intro s rate d hd
  refine ⟨Laws.RoundTrip.configure rate d s.cfg (decide_eq_true hd), execConfigure_rate_rejected hd,
    fun hlo hhi => ?_⟩
  intro ps q
  have hq : s.cfg.fClk / divisor (prescaleOf rate) / rate = q := by rw [divisor_prescaleOf]
  exact ⟨fun h1 hfit => execConfigure_configured hd hlo hhi (compareOf_of_quotient hq h1 hfit),
    fun hunfit => execConfigure_unfit hd hlo hhi (compareOf_none hq hunfit)⟩

/-- Settles O32: by the check phase, and where it passes by what reads back from the loaded buffer. -/
theorem transmitFollowsItsRule : Obligations.TransmitFollowsItsRule := by
  unfold Obligations.TransmitFollowsItsRule
  intro s length data
  refine ⟨rfl, fun hd => ?_, fun hd hs => ?_, fun hwf hd hs hlen => ?_⟩
  · exact execTransmit_turned_away (if_pos hd)
  · exact execTransmit_turned_away ((if_neg (not_not.2 hd)).trans (if_pos hs))
  · intro n
    have hread := Memory.read_load_take hwf (Nat.min_le_right length maxFrameSize) hlen
    exact ⟨_, execTransmit_started hd hs hlen, fun i hi => (hread i).trans (if_pos hi),
      fun i hi => (hread i).trans (if_neg (Nat.not_lt.2 hi))⟩

/-- Settles O33: a RECEIVE that begins goes by its check phase, in the order of the check's tests; one between its phases, and
one that merges them, runs the critical phase. -/
theorem receiveFollowsItsRule : Obligations.ReceiveFollowsItsRule := by
  unfold Obligations.ReceiveFollowsItsRule
  refine ⟨rfl, fun s => ?_⟩
  intro handsOut
  have hcopy (hexec : execReceive s = receiveCritical s) (he : s.st ≠ .error)
      (hlen : s.payloadLength.toNat ≤ maxFrameSize) (hcap : maxFrameSize ≤ s.outCapacity) : handsOut :=
    ⟨_, hexec.trans (receiveCritical_handsOut he hlen hcap), Memory.drain_length _ _,
      fun _ => Memory.drain_getD s.frameBuffer⟩
  refine ⟨fun hp hd => ?_, execReceive_error, fun hp hd he hs => ?_, fun hp ho hd hs => ?_, execReceive_passed,
    fun hp => ?_, fun hp he => ?_⟩
  · exact execReceive_turned_away hp (if_pos hd) nofun
  · exact execReceive_turned_away hp (r := .noData) (by simp [receiveCheck, hd, he, hs]) nofun
  · exact hcopy (execReceive_merged hp hd hs ho) (by rw [hs]; nofun)
  · exact hcopy (execReceive_pending hp)
  · exact (execReceive_pending hp).trans (receiveCritical_error he)

/-- Settles O34: its code decodes by its literal, and its one step has no check. -/
theorem setAddressStoresTheAddress : Obligations.SetAddressStoresTheAddress := by
  unfold Obligations.SetAddressStoresTheAddress
  exact fun s addr => ⟨rfl, rfl⟩

/-- Settles O35: the reserved row keeps the low bits of the code, and its execution is a refusal whatever they are. -/
theorem reservedCommandCodesRefused : Obligations.ReservedCommandCodesRefused := by
  unfold Obligations.ReservedCommandCodesRefused
  exact ⟨fun _ _ => rfl, fun _ ops hcode => ⟨_, decodeCommand_reserved hcode ops⟩⟩

end Sys2Proof
end

section
/-! The transport layer (R261 to R266; log 16): the 16-bit fields of a frame, the parts of the frame that SEND builds, what
RECV makes of each return of its RECEIVE, and that one changed byte breaks a frame's CRC. -/

namespace Sys2Proof.Machine

open Sys2Proof

/-! ### 16-bit fields in the host order -/

@[simp] theorem put16_length (order : HostOrder) (v : BitVec 16) : (put16 order v).length = 2 := by
  cases order <;> rfl

theorem put16_le (v : BitVec 16) :
    put16 .le v = [BitVec.ofNat 8 (v.toNat % 256), BitVec.ofNat 8 (v.toNat / 256)] := by
  have hlow : v.extractLsb' 0 8 = BitVec.ofNat 8 (v.toNat % 256) := by
    apply BitVec.eq_of_toNat_eq
    simp
  have hhigh : v.extractLsb' 8 8 = BitVec.ofNat 8 (v.toNat / 256) := by
    apply BitVec.eq_of_toNat_eq
    simp [Nat.shiftRight_eq_div_pow]
  rw [put16, hlow, hhigh]

theorem put16_be (v : BitVec 16) : put16 .be v = (put16 .le v).reverse := rfl

theorem toNat_byte_append (a b : Byte) : (a ++ b).toNat = 256 * a.toNat + b.toNat := by
  rw [BitVec.toNat_append, ← Nat.shiftLeft_add_eq_or_of_lt b.isLt, Nat.shiftLeft_eq]
  omega

theorem get16_le_toNat (f : List Byte) (i : Nat) :
    (get16 .le f i).toNat = (f.getD i 0).toNat + 256 * (f.getD (i + 1) 0).toNat :=
  (toNat_byte_append _ _).trans (Nat.add_comm _ _)

theorem get16_be_toNat (f : List Byte) (i : Nat) :
    (get16 .be f i).toNat = 256 * (f.getD i 0).toNat + (f.getD (i + 1) 0).toNat :=
  toNat_byte_append _ _

/-- A field determines its two bytes, whatever the order. -/
theorem get16_inj {order : HostOrder} {f g : List Byte} {i k : Nat} :
    get16 order f i = get16 order g k ↔ f.getD i 0 = g.getD k 0 ∧ f.getD (i + 1) 0 = g.getD (k + 1) 0 := by
  refine ⟨fun h => ?_, fun ⟨h0, h1⟩ => by simp only [get16, h0, h1]⟩
  have hv := congrArg BitVec.toNat h
  cases order
  · rw [get16_le_toNat, get16_le_toNat] at hv
    bv_omega
  · rw [get16_be_toNat, get16_be_toNat] at hv
    bv_omega

/-- Reading back a field that was put (R263). -/
theorem get16_put16_append (order : HostOrder) (v : BitVec 16) (rest : List Byte) :
    get16 order (put16 order v ++ rest) 0 = v := by
  have hjoin : v.extractLsb' 8 8 ++ v.extractLsb' 0 8 = v := by
    apply BitVec.eq_of_toNat_eq
    simp [toNat_byte_append, Nat.shiftRight_eq_div_pow]
    omega
  cases order <;> exact hjoin

theorem get16_put16 (order : HostOrder) (v : BitVec 16) : get16 order (put16 order v) 0 = v := by
  simpa using get16_put16_append order v []

/-- A field after a prefix is a field of what follows the prefix. -/
theorem get16_append_right (order : HostOrder) {pre : List Byte} {n : Nat} (hn : pre.length = n) (rest : List Byte) :
    get16 order (pre ++ rest) n = get16 order rest 0 := by
  subst hn
  exact get16_inj.2 ⟨by simp [List.getElem?_append], by simp [List.getElem?_append]⟩

/-- A changed byte after a field leaves it. -/
theorem get16_set_of_lt (order : HostOrder) (f : List Byte) {i j : Nat} (h : i + 1 < j) (x : Byte) :
    get16 order (f.set j x) i = get16 order f i :=
  get16_inj.2 ⟨by simp [List.getElem?_set_ne (by omega : j ≠ i)], by simp [List.getElem?_set_ne h.ne']⟩

/-- Another value of one of its bytes changes a field. -/
theorem get16_set_ne (order : HostOrder) {f : List Byte} {k : Nat} {x : Byte} (hk : k < 2) (hlen : k < f.length)
    (hx : x ≠ f.getD k 0) : get16 order (f.set k x) 0 ≠ get16 order f 0 := by
  intro h
  obtain ⟨h0, h1⟩ := get16_inj.1 h
  have hread : (f.set k x).getD k 0 = x := by simp [hlen]
  obtain rfl | rfl : k = 0 ∨ k = 1 := by omega
  · exact hx (hread.symm.trans h0)
  · exact hx (hread.symm.trans h1)

/-! ### The frame that SEND builds -/

/-- A transport frame's length fits the length register (R261). -/
theorem toNat_frameLength {payload : List Byte} (h : payload.length ≤ maxDataSize) :
    (BitVec.ofNat 6 (6 + payload.length)).toNat = 6 + payload.length := by
  rw [BitVec.toNat_ofNat]
  have hmax : maxDataSize = 32 := rfl
  omega

section Frame

variable (order : HostOrder) (dst src : BitVec 16) (payload : List Byte)

@[simp] theorem transportHead_length : (transportHead order dst src payload).length = 4 + payload.length := by
  simp only [transportHead, List.length_append, put16_length]

theorem frameLength_eq : 6 + payload.length = (transportHead order dst src payload).length + 2 := by
  rw [transportHead_length]
  omega

@[simp] theorem transportFrame_length : (transportFrame order dst src payload).length = 6 + payload.length := by
  rw [transportFrame, List.length_append, put16_length, ← frameLength_eq]

/-- The frame, from its destination on. -/
theorem transportFrame_eq :
    transportFrame order dst src payload =
      put16 order dst ++ (put16 order src ++ (payload ++ put16 order (crc16 (transportHead order dst src payload)))) := by
  simp only [transportFrame, transportHead, List.append_assoc]

theorem get16_transportFrame_dst : get16 order (transportFrame order dst src payload) 0 = dst := by
  rw [transportFrame_eq, get16_put16_append]

theorem get16_transportFrame_src : get16 order (transportFrame order dst src payload) 2 = src := by
  rw [transportFrame_eq, get16_append_right order (put16_length order dst), get16_put16_append]

variable {payload} {m : Nat} (hm : payload.length = m)
include hm

theorem transportFrame_payload : ((transportFrame order dst src payload).drop 4).take m = payload := by
  have haddresses : (put16 order dst ++ put16 order src).length = 4 := by simp
  rw [transportFrame_eq, ← List.append_assoc, List.drop_left' haddresses, List.take_left' hm]

/-- The frame's last field is the CRC of all that precedes it (R261). -/
theorem get16_transportFrame_crc :
    get16 order (transportFrame order dst src payload) (4 + m) =
      crc16 ((transportFrame order dst src payload).take (4 + m)) := by
  have hhead : (transportHead order dst src payload).length = 4 + m := by rw [transportHead_length, hm]
  rw [transportFrame, List.take_left' hhead, get16_append_right order hhead, get16_put16]

end Frame

/-! ### The CRC of a received frame -/

theorem frameValid_iff {order : HostOrder} {f : List Byte} {n : Nat} :
    frameValid order f n = true ↔ crc16 (f.take (n - 2)) = get16 order f (n - 2) := decide_eq_true_iff

/-- A frame is valid if the field after its head is the head's CRC (R128). -/
theorem frameValid_append (order : HostOrder) (head tail : List Byte) :
    frameValid order (head ++ tail) (head.length + 2) = true ↔ crc16 head = get16 order tail 0 := by
  rw [frameValid_iff, Nat.add_sub_cancel, List.take_left, get16_append_right order rfl]

theorem frameValid_transportFrame (order : HostOrder) (dst src : BitVec 16) (payload : List Byte) :
    frameValid order (transportFrame order dst src payload) (6 + payload.length) = true := by
  rw [frameLength_eq order dst src, transportFrame, frameValid_append, get16_put16]

/-- Another value of one byte, in the head or in the CRC, makes a frame invalid: it changes either the head's CRC or the
field that this is compared with. -/
theorem not_frameValid_set (order : HostOrder) {head : List Byte} {j : Nat} {x : Byte} (hj : j < head.length + 2)
    (hx : x ≠ (head ++ put16 order (crc16 head)).getD j 0) :
    ¬ frameValid order ((head ++ put16 order (crc16 head)).set j x) (head.length + 2) = true := by
  rcases Nat.lt_or_ge j head.length with hhead | hcrc
  · rw [List.getD_append _ _ _ _ hhead, List.getD_eq_getElem _ _ hhead] at hx
    have hlen : (head.set j x).length = head.length := List.length_set
    rw [List.set_append_left _ _ hhead, ← hlen, frameValid_append, get16_put16]
    exact crc16_set_ne hhead hx
  · rw [List.getD_append_right _ _ _ _ hcrc] at hx
    rw [List.set_append_right _ _ hcrc, frameValid_append]
    have hk : j - head.length < 2 := by omega
    have hne := get16_set_ne order hk (by rwa [put16_length]) hx
    rw [get16_put16] at hne
    exact hne.symm

theorem not_frameValid_transportFrame_set (order : HostOrder) (dst src : BitVec 16) {payload : List Byte} {j : Nat}
    {x : Byte} (hj : j < 6 + payload.length) (hx : x ≠ (transportFrame order dst src payload).getD j 0) :
    ¬ frameValid order ((transportFrame order dst src payload).set j x) (6 + payload.length) = true := by
  rw [frameLength_eq order dst src] at hj ⊢
  exact not_frameValid_set order hj hx

/-! ### What RECV makes of a return -/

theorem addressAccepted_iff {order : HostOrder} {own : BitVec 16} {f : List Byte} :
    addressAccepted order own f = true ↔ get16 order f 0 = own ∨ get16 order f 0 = 0xFFFF := by
  simp only [addressAccepted, Bool.or_eq_true, decide_eq_true_eq]

section Judge

variable {before : HostReturn} {s : State}

/-- A return without information, as every error of RECEIVE is, ends RECV with it (R262). -/
theorem recvJudge_error (h : s.hostReturn.info = .nothing) : recvJudge before s = { s with recvActive := false } := by
  rw [recvJudge, h]
  rfl

variable {n : BitVec 6} {f : List Byte} (hret : s.hostReturn.info = .frame n f)
include hret

theorem recvJudge_short (h : n.toNat < 6) : recvJudge before s = s.recvDone (.result .crcError) := by
  rw [recvJudge, hret]
  exact if_pos h

theorem recvJudge_filtered (hlen : 6 ≤ n.toNat) (ha : ¬ addressAccepted s.cfg.hostOrder s.ownAddress f = true) :
    recvJudge before s = { s with hostReturn := before } := by
  simp [recvJudge, hret, hlen, ha]

theorem recvJudge_invalid (ha : addressAccepted s.cfg.hostOrder s.ownAddress f = true)
    (hv : ¬ frameValid s.cfg.hostOrder f n.toNat = true) :
    recvJudge before s = s.recvDone (.result .crcError) := by
  simp [recvJudge, hret, ha, hv]

theorem recvJudge_valid (hlen : 6 ≤ n.toNat) (ha : addressAccepted s.cfg.hostOrder s.ownAddress f = true)
    (hv : frameValid s.cfg.hostOrder f n.toNat = true) :
    recvJudge before s =
      s.recvDone
        { code := some .ok
          info := .message (get16 s.cfg.hostOrder f 2) ((f.drop 4).take (n.toNat - 6)) (n.toNat - 6) } := by
  simp [recvJudge, hret, hlen, ha, hv]

end Judge

/-! ### The calls -/

section Calls

variable {s t : State}

theorem send_framed (ha : s.ownAddress ≠ 0) {length : Nat} {data : List Byte}
    (hlen : min length maxDataSize ≤ data.length) (dst : BitVec 16) :
    send dst length data s =
      execTransmit (6 + min length maxDataSize)
        (transportFrame s.cfg.hostOrder dst s.ownAddress (data.take (min length maxDataSize))) s := by
  simp only [send, if_neg ha, if_neg (Nat.not_lt.2 hlen)]

/-- A step of RECV is the step of its RECEIVE, judged once that has returned (R262). -/
theorem recvPoll_of_execReceive (h : execReceive s = .next t) :
    recvPoll s = .next (if t.receivePending then t else recvJudge s.hostReturn t) := by
  rw [recvPoll, h]

theorem recvStart_of_execReceive (ha : s.ownAddress ≠ 0) (h : execReceive { s with recvActive := true } = .next t) :
    recvStart s = .next (if t.receivePending then t else recvJudge s.hostReturn t) :=
  (if_neg ha).trans (recvPoll_of_execReceive h)

/-- A RECEIVE that returns an error ends the RECV that begins with it (R262). -/
theorem recvStart_error (ha : s.ownAddress ≠ 0) (h : execReceive { s with recvActive := true } = .next t)
    (hp : t.receivePending = false) (hret : t.hostReturn.info = .nothing) :
    recvStart s = .next { t with recvActive := false } := by
  rw [recvStart_of_execReceive ha h, if_neg (Bool.eq_false_iff.1 hp), recvJudge_error hret]

theorem recvStart_turned_away (ha : s.ownAddress ≠ 0) (hp : s.receivePending = false) {r : ResultCode}
    (hc : receiveCheck s = some r) (hr : r ≠ .frameError) :
    recvStart s = .next { s with recvActive := false, hostReturn := .result r } :=
  recvStart_error ha (execReceive_turned_away (s := { s with recvActive := true }) hp hc hr) hp rfl

theorem hostTurn_recvActive (hspin : s.spin = none) (ha : s.recvActive = true) : hostTurn s = recvPoll s := by
  simp [hostTurn, hspin, ha]

end Calls

end Sys2Proof.Machine

namespace Sys2Proof

open Sys2Proof.Machine

/-- Settles O54: the fields as numbers. -/
theorem transportFieldsHaveTheHostOrder : Obligations.TransportFieldsHaveTheHostOrder := by
  unfold Obligations.TransportFieldsHaveTheHostOrder
  refine ⟨fun v => ⟨put16_le v, ?_⟩, fun f i => ⟨get16_le_toNat f i, get16_be_toNat f i⟩⟩
  rw [put16_be, put16_le]
  rfl

/-- Settles O55: the frame of `transportFrame`, read field by field. -/
theorem sendTransmitsTheFramedPayload : Obligations.SendTransmitsTheFramedPayload := by
  unfold Obligations.SendTransmitsTheFramedPayload
  intro s dst length data
  refine ⟨fun ha => if_pos ha, fun ha hlen => ?_⟩
  intro m
  have hm : (data.take m).length = m := List.length_take_of_le hlen
  refine ⟨_, send_framed ha hlen dst, ?_, get16_transportFrame_dst _ _ _ _, get16_transportFrame_src _ _ _ _,
    transportFrame_payload _ _ _ hm, get16_transportFrame_crc _ _ _ hm⟩
  rw [transportFrame_length, hm]

/-- Settles O56: RECV's calls are its RECEIVEs, and each of RECEIVE's errors returns without information. -/
theorem recvCallsReceive : Obligations.RecvCallsReceive := by
  unfold Obligations.RecvCallsReceive
  refine fun s => ⟨fun ha => if_pos ha, fun ha hp => ⟨fun hd => ?_, fun hd hs => ?_, fun hd he hs => ?_⟩,
    fun ha t ht => recvStart_of_execReceive ha ht, fun hspin hactive t ht => ?_⟩
  · exact recvStart_turned_away ha hp (if_pos hd) nofun
  · exact recvStart_error ha (execReceive_error hp hd hs) hp rfl
  · exact recvStart_turned_away ha hp (r := .noData) (by simp [receiveCheck, hd, he, hs]) nofun
  · have hturn := (hostTurn_recvActive hspin hactive).trans (recvPoll_of_execReceive ht)
    exact ⟨fun hp => by rw [hturn, if_pos hp], fun hp => by rw [hturn, if_neg (Bool.eq_false_iff.1 hp)]⟩

/-- Settles O57: one clause of RECV's judgement for each. -/
theorem recvJudgesTheReceivedFrame : Obligations.RecvJudgesTheReceivedFrame := by
  unfold Obligations.RecvJudgesTheReceivedFrame
  intro before s n f hf hret
  have hinfo : s.hostReturn.info = .frame n f := by rw [hret]
  refine ⟨recvJudge_short hinfo, fun hlen ha => ?_, fun _ ha hv => ?_, fun hlen ha hv => ?_⟩
  · exact recvJudge_filtered hinfo hlen (mt addressAccepted_iff.1 ha)
  · exact recvJudge_invalid hinfo (addressAccepted_iff.2 ha) (mt frameValid_iff.1 hv)
  · refine ⟨_, recvJudge_valid hinfo hlen (addressAccepted_iff.2 ha) (frameValid_iff.2 hv), ?_, fun i hi => ?_⟩
    · simp only [List.length_take, List.length_drop]
      omega
    · simp [hi]

/-- Settles O58: the frame passes the filter and the CRC check, and its fields are those it was built from. -/
theorem transportFrameRoundTrip : Obligations.TransportFrameRoundTrip := by
  unfold Obligations.TransportFrameRoundTrip
  intro before s dst src payload hmax hdst hret
  have hn := toNat_frameLength hmax
  have ha : addressAccepted s.cfg.hostOrder s.ownAddress (transportFrame s.cfg.hostOrder dst src payload) = true := by
    rwa [addressAccepted_iff, get16_transportFrame_dst]
  have hv := frameValid_transportFrame s.cfg.hostOrder dst src payload
  rw [← hn] at hv
  rw [recvJudge_valid (congrArg HostReturn.info hret) (by omega) ha hv, hn, Nat.add_sub_cancel_left,
    get16_transportFrame_src, transportFrame_payload _ _ _ rfl]
  rfl

/-- Settles O59: the changed byte leaves the destination and breaks the CRC. -/
theorem corruptedByteIsACrcError : Obligations.CorruptedByteIsACrcError := by
  unfold Obligations.CorruptedByteIsACrcError
  intro before s dst src payload j x hmax hdst hj hlast f hx hret
  have ha : addressAccepted s.cfg.hostOrder s.ownAddress (f.set j x) = true := by
    rwa [addressAccepted_iff, get16_set_of_lt _ _ hj, get16_transportFrame_dst]
  have hv := not_frameValid_transportFrame_set s.cfg.hostOrder dst src hlast hx
  rw [← toNat_frameLength hmax] at hv
  exact recvJudge_invalid (congrArg HostReturn.info hret) ha hv

end Sys2Proof
end

section
/-! The exceptions (R300 to R317): the end of the state ERROR, and the clock level, where the tick generator counts,
fires and makes the phase correction. -/

namespace Sys2Proof.Machine

open Sys2Proof

variable {s t : State}

/-! ### The edge of the prescaled clock, case by case -/

theorem countEdge_match (h : s.tcnt = s.compare) : countEdge s = { s with tcnt := 0 } := by
  rw [countEdge, if_pos h]

theorem countEdge_below (h : s.tcnt ≠ s.compare) (hfit : s.tcnt + 1 < 2 ^ s.cfg.cmpWidth) :
    countEdge s = { s with tcnt := s.tcnt + 1 } := by
  rw [countEdge, if_neg h, Nat.mod_eq_of_lt hfit]

theorem clockEdge_spinning {n : Nat} (hs : s.spin = some n) (b : Bool) :
    clockEdge b s = .next (spinAt (n + 1) { s with lineIn := b }) := by
  simp only [clockEdge, hs]

section Counting

variable (hs : s.spin = none)
include hs

theorem clockEdge_stopped (hp : s.prescaler = .stopped) (b : Bool) :
    clockEdge b s = .next { s with lineIn := b } := by
  simp [clockEdge, hs, hp]

variable (hp : s.prescaler ≠ .stopped)
include hp

/-- Below the compare value, with no tick waiting, an edge counts (R313). -/
theorem clockEdge_counts (hdue : s.tickDue = false) (hne : s.tcnt ≠ s.compare) (hfit : s.tcnt + 1 < 2 ^ s.cfg.cmpWidth)
    (b : Bool) : clockEdge b s = .next { s with lineIn := b, tcnt := s.tcnt + 1 } := by
  simp [clockEdge, hs, hp, hdue, hne, countEdge, Nat.mod_eq_of_lt hfit]

/-- At the compare value with ticks disabled the counter is cleared and the tick waits (R307, R313; log 14). -/
theorem clockEdge_waits (hmatch : s.tcnt = s.compare) (hoff : s.tickEnable = false) (b : Bool) :
    clockEdge b s = .next { s with lineIn := b, tcnt := 0, tickDue := true } := by
  simp [clockEdge, hs, hp, hmatch, hoff, countEdge]

/-- A tick that is due or waits fires with ticks enabled (R313; log 14, log 25). -/
theorem clockEdge_fires (hdue : s.tcnt = s.compare ∨ s.tickDue = true) (hon : s.tickEnable = true) (b : Bool) :
    clockEdge b s = fireTick { countEdge { s with lineIn := b } with tickDue := false } := by
  simp [clockEdge, hs, hp, hdue, hon, countEdge]

theorem clockEdge_match (hmatch : s.tcnt = s.compare) (hon : s.tickEnable = true) (b : Bool) :
    clockEdge b s = fireTick { s with lineIn := b, tcnt := 0, tickDue := false } := by
  rw [clockEdge_fires hs hp (.inl hmatch) hon, countEdge_match (s := { s with lineIn := b }) hmatch]

end Counting

/-! ### The firing of a tick -/

theorem fireTick_of_next (h : runTick s.lineIn s = .next t) :
    fireTick s = .next (if s.dir = .receive ∧ t.phaseReq then spinAt 0 t else t) := by
  rw [fireTick, h]

/-- Only a Receive link makes a phase correction (R316). -/
theorem fireTick_not_receive (hd : s.dir ≠ .receive) : fireTick s = runTick s.lineIn s := by
  cases h : runTick s.lineIn s with
  | next t => rw [fireTick_of_next h, if_neg (hd ·.1)]
  | _ => rw [fireTick, h]

theorem fireTick_no_request (h : runTick s.lineIn s = .next t) (hq : t.phaseReq = false) : fireTick s = .next t := by
  rw [fireTick_of_next h, if_neg (by simp [hq])]

theorem fireTick_request (h : runTick s.lineIn s = .next t) (hd : s.dir = .receive) (hq : t.phaseReq = true) :
    fireTick s = .next (spinAt 0 t) := by
  rw [fireTick_of_next h, if_pos ⟨hd, hq⟩]

/-- Each key of a Receive link selects a rule of its FSM or an unreachable row (R100). -/
theorem decodeRxKey_cases :
    ∀ k : BitVec 4, (decodeRxKey k).isRxTick = true ∨ (decodeRxKey k).isUnreachableTick = true := by decide

/-- A receive tick reads the pin and leaves it at the level of its entry (R190, R305). -/
theorem runTick_receive_lineIn {b : Bool} (h : runTick b s = .next t) (hd : s.dir = .receive) (hl : s.lineIn = b) :
    t.lineIn = b := by
  obtain ⟨-, -, hexec⟩ | ⟨-, rfl⟩ := runTick_cases h
  · rw [State.key, hd, decodeTick_receive] at hexec
    obtain hrx | hunreachable := decodeRxKey_cases s.st.code
    · obtain ⟨_, _, _, _, _, _, _, _, _, rfl, -⟩ := rxTick_writes hrx hexec
      rfl
    · rw [exec_unreachableTick hunreachable] at hexec
      cases hexec
  · exact hl

/-! ### The spin -/

/-- No tick follows while a spin runs (R311; log 5). -/
theorem runTick_spinning {n : Nat} (h : s.spin = some n) (b : Bool) : runTick b s = .next s :=
  runTick_masked b (.inr (h ▸ Option.some_ne_none n))

/-- No host step interrupts a spin (R308; log 15). -/
theorem hostTurn_spinning {n : Nat} (h : s.spin = some n) : hostTurn s = .next s := by
  simp [hostTurn, h]

theorem spinAt_goes_on {n : Nat} (hl : s.lineIn = true) (hb : spinBoundReached s.cfg.spinMax s.compare n = false) :
    spinAt n s = { s with spin := some n } := by
  simp [spinAt, hl, hb]

theorem spinAt_ends {n : Nat} (h : s.lineIn = false ∨ spinBoundReached s.cfg.spinMax s.compare n = true) :
    spinAt n s = endSpin s := by
  obtain hl | hb := h
  · simp [spinAt, hl]
  · simp [spinAt, hb]

@[simp] theorem spinAt_st (n : Nat) (s : State) : (spinAt n s).st = s.st := by
  obtain ⟨-, -, h⟩ | ⟨-, h⟩ := spinAt_cases n s <;> rw [h]
  rfl

/-- While the line is high and the bound is not reached, an edge only counts the spin (R316). -/
theorem clockEdge_spin_goes_on {n : Nat} (hs : s.spin = some n)
    (hb : spinBoundReached s.cfg.spinMax s.compare (n + 1) = false) :
    clockEdge true s = .next { s with lineIn := true, spin := some (n + 1) } := by
  rw [clockEdge_spinning hs, spinAt_goes_on (s := { s with lineIn := true }) rfl hb]

/-- No count of spun clocks ends the unbounded spin (R317). -/
theorem clockEdge_spin_unbounded {n : Nat} (hs : s.spin = some n) (hinf : s.cfg.spinMax = .infinite) :
    clockEdge true s = .next { s with lineIn := true, spin := some (n + 1) } :=
  clockEdge_spin_goes_on hs (by rw [hinf, spinBoundReached])

/-- The end of a spin places the counter `PHASE_DELAY` prescaled clocks before its tick (R316). -/
theorem clockEdge_spin_ends {n : Nat} {b : Bool} (hs : s.spin = some n) (hc : s.compare < 2 ^ s.cfg.cmpWidth)
    (hend : b = false ∨ spinBoundReached s.cfg.spinMax s.compare (n + 1) = true)
    (hpos : 1 ≤ phaseDelayOf s.cfg.phaseDelay s.compare)
    (hle : phaseDelayOf s.cfg.phaseDelay s.compare ≤ s.compare + 1) :
    clockEdge b s =
      .next { s with
        lineIn := b, spin := none, tcnt := s.compare + 1 - phaseDelayOf s.cfg.phaseDelay s.compare } := by
  have htcnt := endSpin_tcnt (s := { s with lineIn := b }) rfl hpos hle hc
  rw [clockEdge_spinning hs, spinAt_ends (s := { s with lineIn := b }) hend]
  exact congrArg (fun n => Host.Outcome.next { s with lineIn := b, spin := none, tcnt := n }) htcnt

/-! ### Runs of edges -/

theorem clockEdges_cons {b : Bool} (h : clockEdge b s = .next t) (bs : List Bool) :
    clockEdges (b :: bs) s = clockEdges bs t := by
  simp only [clockEdges, h]

theorem clockEdges_one (b : Bool) (s : State) : clockEdges [b] s = clockEdge b s := by
  cases h : clockEdge b s with
  | next t => rw [clockEdges_cons h, clockEdges]
  | _ => simp only [clockEdges, h]

section Period

variable (hs : s.spin = none) (hp : s.prescaler ≠ .stopped) (hdue : s.tickDue = false)
  (hc : s.compare < 2 ^ s.cfg.cmpWidth) {levels : List Bool}
include hs hp hdue hc

/-- Edges up to the compare value only count (R313). -/
theorem clockEdges_count (hlen : s.tcnt + levels.length ≤ s.compare) :
    clockEdges levels s =
      .next { s with tcnt := s.tcnt + levels.length, lineIn := levels.getLastD s.lineIn } := by
  induction levels generalizing s with
  | nil => rfl
  | cons b bs ih =>
    rw [List.length_cons] at hlen
    have hlen' : s.tcnt + 1 + bs.length ≤ s.compare := by omega
    rw [clockEdges_cons (clockEdge_counts hs hp hdue (by omega) (by omega) b),
      ih (s := { s with lineIn := b, tcnt := s.tcnt + 1 }) hs hp hdue hc hlen', List.length_cons, List.getLastD_cons,
      Nat.add_right_comm, Nat.add_assoc]

variable (hlen : s.tcnt + levels.length = s.compare)
include hlen

theorem clockEdges_to_compare :
    clockEdges levels s = .next { s with tcnt := s.compare, lineIn := levels.getLastD s.lineIn } := by
  rw [clockEdges_count hs hp hdue hc hlen.le, hlen]

/-- The edge after those that reach the compare value clears the counter and fires (R313 to R315). -/
theorem clockEdges_fire (hon : s.tickEnable = true) (b : Bool) :
    clockEdges (levels ++ [b]) s = fireTick { s with tcnt := 0, lineIn := b } := by
  rw [clockEdges_append _ _ (clockEdges_to_compare hs hp hdue hc hlen), clockEdges_one,
    clockEdge_match (s := { s with tcnt := s.compare, lineIn := levels.getLastD s.lineIn }) hs hp rfl hon, ← hdue]

end Period

/-! ### The state ERROR -/

/-- What R303 allows of a state reached from ERROR: still there, restarted with FrameError reported, or configured. -/
def ErrorKeptOrReported (t : State) : Prop :=
  t.st ≠ .error →
    t.st = .start ∧ t.hostReturn.code = some .frameError ∨ t.st = .ready ∧ t.hostReturn.code = some .ok

theorem decodeCommand_not_tick {code : BitVec 4} {ops : Operands} {i : Instr} (h : decodeCommand code ops = .ok i) :
    i.isTxTick = false ∧ i.isRxTick = false := by
  unfold decodeCommand at h
  split at h
  · unfold decodeConfigure at h
    split at h <;> cases h
    exact ⟨rfl, rfl⟩
  all_goals
    cases h
    exact ⟨rfl, rfl⟩

theorem decodeSymbol_not_tick (c : BitVec 5) :
    (decodeSymbol c).isTxTick = false ∧ (decodeSymbol c).isRxTick = false := by
  unfold decodeSymbol
  split <;> exact ⟨rfl, rfl⟩

/-- What the host presents decodes to no tick rule (R100, R102, R103). -/
theorem decodeHost_not_tick {c : HostCode} {i : Instr} (h : decodeHost c = .ok i) :
    i.isTxTick = false ∧ i.isRxTick = false := by
  cases c with
  | cmd code ops => exact decodeCommand_not_tick h
  | symbol c => cases h; exact decodeSymbol_not_tick c
  | wire9 | wire11 | leadout9 | leadout11 =>
    simp only [decodeHost] at h
    split at h <;> cases h
    exact ⟨rfl, rfl⟩
  | _ => cases h; exact ⟨rfl, rfl⟩

/-- SEND on a Receive link leaves its state (R234, R261). -/
theorem send_receive_st (hd : s.dir = .receive) {dst : BitVec 16} {n : Nat} {data : List Byte}
    (h : send dst n data s = .next t) : t.st = s.st := by
  simp only [send] at h
  split at h
  · cases h; rfl
  · split at h
    · cases h
    · obtain ⟨_, rfl⟩ | ⟨htransmit, -⟩ := execTransmit_cases h
      · rfl
      · cases hd.symm.trans htransmit

section Error

variable (hd : s.dir = .receive) (he : s.st = .error)
include hd he

/-- In ERROR each phase of RECEIVE reports FrameError and restarts the machine (R235, R303; log 27). -/
theorem execReceive_in_error :
    execReceive s = .next { s with st := .start, receivePending := false, hostReturn := .result .frameError } := by
  cases hp : s.receivePending with
  | true => rw [execReceive_pending hp, receiveCritical_error he]
  | false => rw [execReceive_error hp hd he, ← hp]

/-- An instruction that the host presents (R303). -/
theorem exec_errorKeptOrReported {i : Instr} (htx : i.isTxTick = false) (hrx : i.isRxTick = false)
    (h : exec i s = .next t) : ErrorKeptOrReported t := by
  intro hleft
  obtain ⟨-, hwriters, -⟩ := onlyTheListedInstructionsWriteEachRegister i s t h
  obtain hi | hi | ⟨rate, d, rfl⟩ | ⟨n, data, rfl⟩ | rfl := hwriters (he ▸ hleft)
  · exact absurd hi (Bool.eq_false_iff.1 htx)
  · exact absurd hi (Bool.eq_false_iff.1 hrx)
  · obtain ⟨-, ⟨-, rfl⟩ | ⟨-, -, _, -, rfl⟩⟩ := execConfigure_cases h
    · exact absurd he hleft
    · exact .inr ⟨rfl, rfl⟩
  · obtain ⟨_, rfl⟩ | ⟨htransmit, -⟩ := execTransmit_cases h
    · exact absurd he hleft
    · cases hd.symm.trans htransmit
  · cases (execReceive_in_error hd he).symm.trans h
    exact .inl ⟨rfl, rfl⟩

theorem recvPoll_errorKeptOrReported (h : recvPoll s = .next t) : ErrorKeptOrReported t := by
  rw [recvPoll_of_execReceive (execReceive_in_error hd he), if_neg Bool.false_ne_true, recvJudge_error rfl] at h
  cases h
  exact fun _ => .inl ⟨rfl, rfl⟩

theorem recvStart_errorKeptOrReported (h : recvStart s = .next t) : ErrorKeptOrReported t := by
  unfold recvStart at h
  split at h
  · cases h; exact absurd he
  · exact recvPoll_errorKeptOrReported (s := { s with recvActive := true }) hd he h

theorem runCall_errorKeptOrReported {c : HostCall} (h : runCall c s = .next t) : ErrorKeptOrReported t := by
  cases c with
  | code c =>
    cases hdec : decodeHost c with
    | ok i =>
      rw [runCall_code hdec] at h
      obtain ⟨htx, hrx⟩ := decodeHost_not_tick hdec
      exact exec_errorKeptOrReported hd he htx hrx h
    | error e => cases (runCall_rejected hdec).symm.trans h
  | send dst n data => exact absurd ((send_receive_st hd h).trans he)
  | recv => exact recvStart_errorKeptOrReported hd he h

theorem hostTurn_errorKeptOrReported (h : hostTurn s = .next t) : ErrorKeptOrReported t := by
  obtain ⟨-, hturn⟩ | ⟨-, -, hturn⟩ | ⟨-, -, -, hturn⟩ | ⟨-, -, -, ⟨-, hturn⟩ | ⟨c, q, -, hturn⟩⟩ :=
    hostTurn_cases s <;> rw [hturn] at h
  · cases h; exact absurd he
  · exact recvPoll_errorKeptOrReported hd he h
  · exact exec_errorKeptOrReported hd he rfl rfl h
  · cases h; exact absurd he
  · exact runCall_errorKeptOrReported (s := { s with hostQueue := q }) hd he h

/-- A tick leaves ERROR as it is (R200). -/
theorem runTick_error {b : Bool} (h : runTick b s = .next t) : t.st = .error := by
  obtain ⟨-, -, hexec⟩ | ⟨-, rfl⟩ := runTick_cases h
  · rw [State.key, hd, he, decodeTick_receive] at hexec
    cases hexec
    exact he
  · exact he

theorem fireTick_error (h : fireTick s = .next t) : t.st = .error := by
  obtain ⟨u, hu, ⟨-, -, rfl⟩ | ⟨-, rfl⟩⟩ := fireTick_cases h
  · rw [spinAt_st, runTick_error hd he hu]
  · exact runTick_error hd he hu

theorem clockEdge_error {b : Bool} (h : clockEdge b s = .next t) : t.st = .error := by
  obtain ⟨n, -, hedge⟩ | ⟨-, -, hedge⟩ | ⟨-, -, -, hedge⟩ | ⟨-, -, -, -, hedge⟩ | ⟨-, -, -, -, hedge⟩ :=
    clockEdge_cases b s <;> rw [hedge] at h
  · cases h; exact (spinAt_st _ _).trans he
  · cases h; exact he
  · cases h; exact he
  · exact fireTick_error (s := { countEdge { s with lineIn := b } with tickDue := false }) hd he h
  · cases h; exact he

end Error

end Sys2Proof.Machine

namespace Sys2Proof

open Sys2Proof.Machine

/-- Settles O30: a tick and a clock edge stay in ERROR, and the host's calls leave it as R303 says. -/
theorem errorIsLeftOnlyByReceiveOrConfigure : Obligations.ErrorIsLeftOnlyByReceiveOrConfigure := by
  unfold Obligations.ErrorIsLeftOnlyByReceiveOrConfigure
  intro s t hd he hstep hleft
  cases hturns : s.schedule with
  | nil =>
    rw [step_nil hturns] at hstep
    cases hstep
    exact absurd he hleft
  | cons turn ts =>
    rw [step_cons hturns] at hstep
    cases turn with
    | tick b => exact absurd (runTick_error (s := { s with schedule := ts }) hd he hstep) hleft
    | clock b => exact absurd (clockEdge_error (s := { s with schedule := ts }) hd he hstep) hleft
    | host =>
      exact ⟨⟨ts, rfl⟩, hostTurn_errorKeptOrReported (s := { s with schedule := ts }) hd he hstep hleft⟩

/-- Settles O47: `compare` edges count up to the compare value, and the next clears the counter and fires. -/
theorem tickPeriodIsComparePlusOne : Obligations.TickPeriodIsComparePlusOne := by
  unfold Obligations.TickPeriodIsComparePlusOne
  intro s levels b hs hdue hp hon hc h0 hlevels
  have hlen : s.tcnt + levels.length = s.compare := by rw [h0, hlevels, Nat.zero_add]
  have hfire : clockEdges (levels ++ [b]) s = fireTick { s with lineIn := b } := by
    rw [clockEdges_fire hs hp hdue hc hlen hon, ← h0]
  exact ⟨clockEdges_to_compare hs hp hdue hc hlen, hfire,
    fun hd => hfire.trans (fireTick_not_receive (s := { s with lineIn := b }) hd)⟩

/-- Settles O49: the end of the spin leaves the counter `PHASE_DELAY - 1` edges below the compare value, and the edge
after those fires. -/
theorem phaseCorrectionPlacesTheNextTick : Obligations.PhaseCorrectionPlacesTheNextTick := by
  unfold Obligations.PhaseCorrectionPlacesTheNextTick
  intro s n b hs hc
  refine ⟨?_, fun hend hdue hp hon => ?_⟩
  · rintro rfl hb
    exact clockEdge_spin_goes_on hs hb
  · intro delay hpos hle u
    refine ⟨clockEdge_spin_ends hs hc hend hpos hle, fun levels c hlevels => ?_⟩
    have hlen : u.tcnt + levels.length = u.compare := by
      change s.compare + 1 - delay + levels.length = s.compare
      omega
    exact ⟨clockEdges_to_compare (s := u) rfl hp hdue hc hlen, clockEdges_fire (s := u) rfl hp hdue hc hlen hon c⟩

/-- Settles O50: by induction on the number of edges, each of which only counts the spin, as no bound ends it. -/
theorem unboundedSpinHangsWhileTheLineIsHigh : Obligations.UnboundedSpinHangsWhileTheLineIsHigh := by
  unfold Obligations.UnboundedSpinHangsWhileTheLineIsHigh
  intro s n k hinf hs
  induction k generalizing s n with
  | zero => exact (clockEdges_one true s).trans (clockEdge_spin_unbounded hs hinf)
  | succ k ih =>
    rw [List.replicate_succ, clockEdges_cons (clockEdge_spin_unbounded hs hinf),
      ih { s with lineIn := true, spin := some (n + 1) } (n + 1) hinf rfl, Nat.add_right_comm n 1 k,
      Nat.add_assoc n k 1]

/-- Settles O46: one law of the clock edge for each clause. -/
theorem clockEdgeCountsAndFires : Obligations.ClockEdgeCountsAndFires := by
  unfold Obligations.ClockEdgeCountsAndFires
  refine ⟨fun s b ts hturn => step_cons hturn, fun s b hs => ⟨fun hp => clockEdge_stopped hs hp b,
    fun hp hdue hne hfit => clockEdge_counts hs hp hdue hne hfit b,
    fun hp hmatch hoff => clockEdge_waits hs hp hmatch hoff b, fun hp hmatch hon => ?_,
    fun hp hdue hon hd hne hfit => ?_⟩⟩
  · intro u
    have hfire : clockEdge b s = fireTick u := clockEdge_match hs hp hmatch hon b
    exact ⟨fun hd => hfire.trans (fireTick_not_receive (s := u) hd),
      fun t ht hq => hfire.trans (fireTick_no_request (s := u) ht hq)⟩
  · rw [clockEdge_fires hs hp (.inr hdue) hon, countEdge_below (s := { s with lineIn := b }) hne hfit]
    exact fireTick_not_receive hd

/-- Settles O48: a spin masks the tick and passes the host over; the firing that asks for the correction begins its spin,
or ends it at its clock 0. -/
theorem phaseCorrectionBeginsAtTheFramingTick : Obligations.PhaseCorrectionBeginsAtTheFramingTick := by
  unfold Obligations.PhaseCorrectionBeginsAtTheFramingTick
  refine ⟨fun s n hs => ?_, fun s t b hs hp hmatch hon hd ht hq => ?_⟩
  · refine ⟨fun level => runTick_spinning hs level, hostTurn_spinning hs, ?_⟩
    rintro u ts (rfl | ⟨level, rfl⟩) hturn <;> rw [step_cons hturn]
    · exact hostTurn_spinning (s := { s with schedule := ts }) hs
    · exact runTick_spinning (s := { s with schedule := ts }) hs level
  · have hline : t.lineIn = b := runTick_receive_lineIn ht hd rfl
    have hfire : clockEdge b s = .next (spinAt 0 t) :=
      (clockEdge_match hs hp hmatch hon b).trans (fireTick_request ht hd hq)
    exact ⟨fun hb hbound => by rw [hfire, spinAt_goes_on (hline.trans hb) hbound],
      fun hend => by rw [hfire, spinAt_ends (hline ▸ hend)]⟩

end Sys2Proof
end

section
/-! What is refused outside the preconditions of the calls (R98, R124, R345, R350; logs 17 and 23). -/

namespace Sys2Proof.Machine

open Sys2Proof

variable {s : State}

theorem execTransmit_shortData {n : Nat} {data : List Byte} (hd : s.dir = .transmit) (hs : s.st = .ready)
    (hshort : data.length < min n maxFrameSize) : execTransmit n data s = .refused .shortData := by
  have hcheck : transmitCheck s = none := by rw [transmitCheck, if_neg (not_not.2 hd), if_neg (not_not.2 hs)]
  simp only [execTransmit, hcheck, if_pos hshort]

theorem execCrc16_shortData {n : Nat} {data : List Byte} (hshort : data.length < n) :
    execCrc16 data n s = .refused .shortData := if_pos hshort

theorem send_shortData {dst : BitVec 16} {length : Nat} {data : List Byte} (ha : s.ownAddress ≠ 0)
    (hshort : data.length < min length maxDataSize) : send dst length data s = .refused .shortData := by
  simp only [send, if_neg ha, if_pos hshort]

theorem receiveCritical_outBufferTooSmall (he : s.st ≠ .error) (hlen : s.payloadLength.toNat ≤ maxFrameSize)
    (hcap : s.outCapacity < maxFrameSize) : receiveCritical s = .refused .outBufferTooSmall := by
  rw [receiveCritical, if_neg he, if_neg (Nat.not_lt.2 hlen), if_pos hcap]

/-- A RECEIVE that holds a frame, between its phases or with both in this step, runs the critical phase. -/
theorem execReceive_critical
    (h : s.receivePending = true ∨ s.dir = .receive ∧ s.st = .recv ∧ s.cfg.recvOverwrite = false) :
    execReceive s = receiveCritical s := by
  cases hp : s.receivePending with
  | true => exact execReceive_pending hp
  | false =>
    obtain ⟨hd, hs, ho⟩ := h.resolve_left (Bool.eq_false_iff.1 hp)
    exact execReceive_merged hp hd hs ho

theorem execReceive_outBufferTooSmall
    (h : s.receivePending = true ∧ s.st ≠ .error ∨ s.dir = .receive ∧ s.st = .recv ∧ s.cfg.recvOverwrite = false)
    (hlen : s.payloadLength.toNat ≤ maxFrameSize) (hcap : s.outCapacity < maxFrameSize) :
    execReceive s = .refused .outBufferTooSmall := by
  have he : s.st ≠ .error := by
    obtain ⟨_, he⟩ | ⟨_, hs, _⟩ := h
    · exact he
    · rw [hs]
      nofun
  exact (execReceive_critical (h.imp_left And.left)).trans (receiveCritical_outBufferTooSmall he hlen hcap)

/-- A RECV is refused where the step of its RECEIVE is. -/
theorem recvPoll_refused {r : Refusal} (h : execReceive s = .refused r) : recvPoll s = .refused r := by
  rw [recvPoll, h]

theorem execConfigure_reservedDirection (rate : Nat) :
    execConfigure rate .reserved s = .refused .reservedDirection := if_pos rfl

end Sys2Proof.Machine

namespace Sys2Proof

open Sys2Proof.Machine

/-- Settles O36: one refusal for each call; that of RECEIVE, which does not read `recvActive`, is also that of the RECV
that makes it. -/
theorem preconditionViolationsAreRefused : Obligations.PreconditionViolationsAreRefused := by
  unfold Obligations.PreconditionViolationsAreRefused
  refine fun s => ⟨fun _ _ => execTransmit_shortData, fun _ _ => execCrc16_shortData, fun _ _ _ => send_shortData,
    fun h hlen hcap => ⟨execReceive_outBufferTooSmall h hlen hcap, fun ha => ?_, fun hspin hactive => ?_⟩,
    execConfigure_reservedDirection⟩
  · exact (if_neg ha).trans
      (recvPoll_refused (execReceive_outBufferTooSmall (s := { s with recvActive := true }) h hlen hcap))
  · exact (hostTurn_recvActive hspin hactive).trans (recvPoll_refused (execReceive_outBufferTooSmall h hlen hcap))

end Sys2Proof
end
